-- ==== Sys2Proof/Word.lean ====
section
/-! DEFINITION. The words the block moves: bytes (00_scope.md R12) and the register widths of R93. -/

namespace Sys2Proof

/-- A byte, and an 8-bit character code (R12, R14). -/
abbrev Byte := BitVec 8

/-- The width of the command word, of `SLEN`, `KLEN` and `STATUS` (R93, R96). -/
abbrev Word16 := BitVec 16

/-- The width of `PERIOD`, `TREM`, `VALUE`, `CODE`, and of a word of SHA1, SHA256 and MD5. -/
abbrev Word32 := BitVec 32

/-- The width of `TIME`, `COUNTER`, of the port's data, and of a word of SHA512. -/
abbrev Word64 := BitVec 64

end Sys2Proof
end

