-- ==== Sys2Proof/Config.lean ====
section
/-! DEFINITION. What the spec fixes for this hardware and lets a model take as an argument (00_scope.md R9;
93_implementation_defined.md U5, U12). No value of the spec is left open, so there is no free value here. -/

namespace Sys2Proof.Config

/-- `SECRET_MAX`, the capacity of the secret buffer in characters (R9; log 7). -/
def secretMax : Nat := 256

/-- `KEY_MAX = floor(SECRET_MAX * 5 / 8)` (R9). -/
def keyMax : Nat := secretMax * 5 / 8

/-- `MSG_LEN`, the bytes of the HMAC message (R9). -/
def msgLen : Nat := 8

/-- `DIGEST_MAX`, the capacity of the digest buffer (R9). -/
def digestMax : Nat := 64

/-- `CODE_MAX`, the capacity of the code string buffer (R9). -/
def codeMax : Nat := 8

/-- `WS_SET`, the six whitespace codes (R303, U5; log 9). -/
def whitespace : List Byte := [0x09, 0x0A, 0x0B, 0x0C, 0x0D, 0x20]

end Sys2Proof.Config
end

