-- ==== Sys2Proof/Syntax.lean ====
section
/-! DEFINITION. The commands, one constructor per row of spec/opcode_table.json (30_encoding.md R97). -/

namespace Sys2Proof

/-- The block's eleven commands. -/
inductive Instr where
  /-- `NOP` (R131). -/
  | nop
  /-- `CLR`, empty the secret buffer (R132). -/
  | clr
  /-- `PUSH imm8`, append one character (R133); all 256 codes are operands (R99). -/
  | push (imm8 : Byte)
  /-- `DEC`, Base32 decode without folding (R160). -/
  | dec
  /-- `DECU`, upper-case, then Base32 decode (R161). -/
  | decu
  /-- `CTR`, the time counter (R182). -/
  | ctr
  /-- `MAC`, HMAC of the message under the key (R201). -/
  | mac
  /-- `TRUNC`, dynamic truncation (R281). -/
  | trunc
  /-- `MOD`, reduction and formatting (R289). -/
  | mod
  /-- `GEN`, the whole of `generate` (R301). -/
  | gen
  /-- `CLRERR`, clear the error record (R134). -/
  | clrerr
  deriving DecidableEq, Repr

end Sys2Proof
end

