-- ==== Sys2Proof/WellFormed.lean ====
section
/-! DEFINITION. The fields of a command word and the three checks R98 makes on them. An operand of `Instr` is
a `Byte`, so nothing of an instruction itself is left to check. -/

namespace Sys2Proof

/-- The fields of a 16-bit command word (30_encoding.md R96). -/
structure CommandFields where
  /-- bits 15:12, the opcode -/
  op : BitVec 4
  /-- bits 11:8, zero in every legal word -/
  zero : BitVec 4
  /-- bits 7:0, the immediate of `PUSH`, zero in every other legal word -/
  imm8 : Byte
  deriving DecidableEq, Repr

/-- Why a word is illegal, by the clause of R98 that says so. -/
inductive IllegalWord where
  /-- `op >= 0xB`. -/
  | reservedOpcode
  /-- `zero != 0`. -/
  | nonzeroField
  /-- `op != 0x2 and imm8 != 0`. -/
  | nonzeroImmediate
  deriving DecidableEq, Repr

/-- The opcode is assigned: it is below 0xB (R97). -/
def CommandFields.opAssigned (f : CommandFields) : Bool := f.op < 0xB

/-- The field `zero` is zero (R96). -/
def CommandFields.zeroClear (f : CommandFields) : Bool := f.zero == 0

/-- Only `PUSH` has an immediate (R96, R99). -/
def CommandFields.immAllowed (f : CommandFields) : Bool := f.op == 0x2 || f.imm8 == 0

/-- The fields of a legal word (R98). -/
def CommandFields.wellFormed (f : CommandFields) : Bool :=
  f.opAssigned && f.zeroClear && f.immAllowed

end Sys2Proof
end

