-- ==== Sys2Proof/Decode.lean ====
section
/-! DEFINITION. The command word: its decoder, total on all 65536 words (30_encoding.md R98), and the encoder
written from the opcode map (R97). A command is presented as one 16-bit number, so there is no byte order (R76). -/

namespace Sys2Proof

/-- The three fields of a word (R96). -/
def splitWord (w : Word16) : CommandFields where
  op := w.extractLsb' 12 4
  zero := w.extractLsb' 8 4
  imm8 := w.extractLsb' 0 8

/-- The command an opcode names (R97); the opcodes 0xB to 0xF name none. -/
def commandOf (f : CommandFields) : Except IllegalWord Instr :=
  match f.op.toNat with
  | 0x0 => .ok .nop
  | 0x1 => .ok .clr
  | 0x2 => .ok (.push f.imm8)
  | 0x3 => .ok .dec
  | 0x4 => .ok .decu
  | 0x5 => .ok .ctr
  | 0x6 => .ok .mac
  | 0x7 => .ok .trunc
  | 0x8 => .ok .mod
  | 0x9 => .ok .gen
  | 0xA => .ok .clrerr
  | _ => .error .reservedOpcode

/-- The decoder of R98: the three tests in its order, then the name. -/
def decode (w : Word16) : Except IllegalWord Instr :=
  let f := splitWord w
  if !f.opAssigned then .error .reservedOpcode
  else if !f.zeroClear then .error .nonzeroField
  else if !f.immAllowed then .error .nonzeroImmediate
  else commandOf f

/-- The fields of a command's word (R96, R97, R99). -/
def Instr.fields (i : Instr) : CommandFields :=
  match i with
  | .nop => ⟨0x0, 0, 0⟩
  | .clr => ⟨0x1, 0, 0⟩
  | .push imm8 => ⟨0x2, 0, imm8⟩
  | .dec => ⟨0x3, 0, 0⟩
  | .decu => ⟨0x4, 0, 0⟩
  | .ctr => ⟨0x5, 0, 0⟩
  | .mac => ⟨0x6, 0, 0⟩
  | .trunc => ⟨0x7, 0, 0⟩
  | .mod => ⟨0x8, 0, 0⟩
  | .gen => ⟨0x9, 0, 0⟩
  | .clrerr => ⟨0xA, 0, 0⟩

/-- The word of three fields, most significant first (R96). -/
def joinWord (f : CommandFields) : Word16 := f.op ++ f.zero ++ f.imm8

/-- The word of a command (R97). -/
def encode (i : Instr) : Word16 := joinWord i.fields

/-- What the decoder reads from the table's word `w` of `nbits` bits: a command is one 16-bit word, so more
than 16 bits are no command (R102), and bits above `nbits` are zero. -/
def decodeTableWord (nbits w : Nat) : Option Instr :=
  if nbits ≤ 16 then (decode (BitVec.ofNat 16 (w % 2 ^ nbits))).toOption else none

end Sys2Proof
end

