-- ==== Sys2Proof/Machine/State.lean ====
section
/-! DEFINITION. The state of the block (10_state.md R20: "Nothing else is state"), the host's transactions and
the port's responses (20_memory.md R62), and the state after reset (R49). -/

namespace Sys2Proof.Machine

/-- A byte buffer: the bytes that differ from 0x00, by rising index. An unlisted index reads 0x00, the reset
contents of every buffer byte (R49; log 5). -/
abbrev Memory := List Host.Cell

/-- The thirteen registers of the register space (30_encoding.md R93). -/
inductive RegName where
  | status | alg | digits | period | time | slen | klen | counter | trem | dlen | offset | value | code
  deriving DecidableEq, Repr

/-- The five buffers of the buffer space (20_memory.md R61). -/
inductive BufName where
  | secret | key | msg | digest | codestr
  deriving DecidableEq, Repr

/-- The errors a command can complete with (60_exceptions.md R321); codes 5, 6, 7 and 12 to 15 are never
produced (R322), so they have no constructor (93_implementation_defined.md U9). -/
inductive ErrorKind where
  | invalidSecretEncoding | emptySecret | invalidDigits | invalidPeriod
  | illegalCommand | sequence | secretOverflow | truncationRange
  deriving DecidableEq, Repr

/-- One host transaction (20_memory.md R62). -/
inductive Transaction where
  /-- Read the register with this index (R63). -/
  | regRead (idx : BitVec 8)
  /-- Write the register with this index (R65, R66). -/
  | regWrite (idx : BitVec 8) (data : Word64)
  /-- Read one byte of a buffer (R67). -/
  | bufRead (buf : BitVec 3) (i : Word16)
  /-- Present a command word (R68). -/
  | cmd (word : Word16)
  /-- Reset the block (R69). -/
  | reset
  deriving DecidableEq, Repr

/-- What the port answers (20_memory.md R62); `Reset` has no response. -/
inductive Response where
  | regRead (ok : Bool) (data : Word64)
  | regWrite (ok : Bool)
  | bufRead (ok : Bool) (byte : Byte)
  | cmd (code : BitVec 4)
  deriving DecidableEq, Repr

/-- The state: every register, buffer and flag of R20, and the two ends of the host port. -/
structure State where
  /-- `ALG`, the hash algorithm (R22). -/
  alg : BitVec 2
  /-- `DIGITS` (R23). -/
  digits : BitVec 8
  /-- `PERIOD`, two's complement (R24). -/
  period : Word32
  /-- `TIME` (R25). -/
  time : Word64
  /-- `SECRET` (R26). -/
  secret : Memory
  /-- `SLEN` (R26). -/
  slen : Word16
  /-- `OVF` (R27). -/
  ovf : Bool
  /-- `KEY`, group K (R28). -/
  key : Memory
  /-- `KLEN`, group K (R28). -/
  klen : Word16
  /-- `KV`, the valid flag of group K (R33, R40). -/
  kv : Bool
  /-- `COUNTER`, group M (R29). -/
  counter : Word64
  /-- `MSG`, group M (R29). -/
  msg : Memory
  /-- `TREM`, group M (R29). -/
  trem : Word32
  /-- `MV`, the valid flag of group M (R33, R40). -/
  mv : Bool
  /-- `DIGEST`, group D (R30). -/
  digest : Memory
  /-- `DLEN`, group D (R30). -/
  dlen : BitVec 8
  /-- `DV`, the valid flag of group D (R33, R40). -/
  dv : Bool
  /-- `OFFSET`, group V (R31). -/
  offset : BitVec 4
  /-- `VALUE`, group V (R31). -/
  value : Word32
  /-- `VV`, the valid flag of group V (R33, R40). -/
  vv : Bool
  /-- `CODE`, group C (R32). -/
  code : Word32
  /-- `CODESTR`, group C (R32). -/
  codestr : Memory
  /-- `CV`, the valid flag of group C (R33, R40). -/
  cv : Bool
  /-- `LASTERR`, the completion code of the most recent command (R34). -/
  lasterr : BitVec 4
  /-- `EF`, sticky (R35). -/
  ef : Bool
  /-- The transactions the host has still to present, head first. The model's own field (log 1). -/
  pending : List Transaction
  /-- The response to the last transaction that gave one. The model's own field (log 2). -/
  reply : Option Response
  deriving DecidableEq, Repr

/-- The block has no fault: every transaction is defined in every state (60_exceptions.md R330; log 14). So no
constructor: nothing raises one, which is as the spec says (safe). -/
inductive Fault where
  deriving DecidableEq, Repr

/-- The step gives a command no meaning. -/
inductive Refusal where
  /-- Raised only by an arm of `exec` whose command has no meaning yet; safe, since nothing then runs. No arm
  of this model raises it. -/
  | notModelled (mnemonic : String)
  deriving DecidableEq, Repr

/-- The state after reset (10_state.md R49): all zero but `DIGITS = 6` and `PERIOD = 30`. The port's own two
fields are empty (log 1, log 2). -/
def State.reset : State where
  alg := 0
  digits := 6
  period := 30
  time := 0
  secret := []
  slen := 0
  ovf := false
  key := []
  klen := 0
  kv := false
  counter := 0
  msg := []
  trem := 0
  mv := false
  digest := []
  dlen := 0
  dv := false
  offset := 0
  value := 0
  vv := false
  code := 0
  codestr := []
  cv := false
  lasterr := 0
  ef := false
  pending := []
  reply := none

end Sys2Proof.Machine
end

