-- ==== Sys2Proof/Machine/Flags.lean ====
section
/-! DEFINITION. The flags: `STATUS` assembled from them (10_state.md R33) and the sticky error flag (R35). The
block has no arithmetic condition codes (R33). -/

namespace Sys2Proof.Machine

/-- `STATUS` as a read assembles it (R33): bits 15:12 and 7 are reserved and read 0. -/
def State.status (s : State) : Word16 :=
  (0 : BitVec 4) ++ s.lasterr ++ (0 : BitVec 1) ++ BitVec.ofBool s.ef ++ BitVec.ofBool s.ovf
    ++ BitVec.ofBool s.cv ++ BitVec.ofBool s.vv ++ BitVec.ofBool s.dv ++ BitVec.ofBool s.mv
    ++ BitVec.ofBool s.kv

/-- `EF` after a command that completes with code `c`: set by a non-zero code, else as it was (R35). -/
def stickyError (ef : Bool) (c : BitVec 4) : Bool := ef || c != 0

end Sys2Proof.Machine
end

