-- ==== Sys2Proof/Machine/Ops.lean ====
section
/-! DEFINITION. The operations every command is written over: byte strings and byte order (00_scope.md R12),
buffer reads and writes (R13), `clear(G)` (10_state.md R44), the writes of the five result groups, and the end
of a command, `complete` and `raise` (60_exceptions.md R326), which is all the block has of taking an exception.
There is no return from one (R328). -/

namespace Sys2Proof.Machine

/-! ### Byte strings -/

/-- `be_n(v)`: the `n`-byte big-endian form of `v` (R12). -/
def beBytes (n v : Nat) : List Byte :=
  (List.range n).map fun i => BitVec.ofNat 8 (v >>> (8 * (n - 1 - i)))

/-- `le_n(v)`: the `n`-byte little-endian form of `v` (R12). -/
def leBytes (n v : Nat) : List Byte :=
  (List.range n).map fun i => BitVec.ofNat 8 (v >>> (8 * i))

/-- `from_be(s)` (R12). -/
def fromBe (s : List Byte) : Nat := s.foldl (fun acc b => acc * 256 + b.toNat) 0

/-- `from_le(s)` (R12). -/
def fromLe (s : List Byte) : Nat := fromBe s.reverse

/-! ### Buffers -/

/-- What an index with no entry reads: the reset contents of every buffer byte (R49; log 5). -/
def Memory.unlisted : Byte := 0x00

/-- `BUF[i]` (R13). -/
def Memory.read (m : Memory) (i : Nat) : Byte :=
  match m with
  | [] => Memory.unlisted
  | (j, b) :: rest => if j = i then b else Memory.read rest i

/-- The entry for one byte: none where it equals what an unlisted index reads. -/
def Memory.entry (i : Nat) (b : Byte) : Memory := if b = Memory.unlisted then [] else [(i, b)]

/-- `BUF[i] <- b`, keeping the canonical form. -/
def Memory.write (m : Memory) (i : Nat) (b : Byte) : Memory :=
  match m with
  | [] => Memory.entry i b
  | (j, c) :: rest =>
    if i < j then Memory.entry i b ++ (j, c) :: rest
    else if i = j then Memory.entry i b ++ rest
    else (j, c) :: Memory.write rest i b

/-- `BUF[i] <- b` on a buffer of `cap` bytes. The spec requires `i < cap` (R13); a write outside, which no run
makes, stores nothing (log 6). -/
def Memory.store (cap : Nat) (m : Memory) (i : Nat) (b : Byte) : Memory :=
  if i < cap then m.write i b else m

/-- `MemWrite(BUF, i, len(bytes), bytes)` (R13). -/
def Memory.storeBytes (cap : Nat) (m : Memory) (i : Nat) (bytes : List Byte) : Memory :=
  match bytes with
  | [] => m
  | b :: rest => Memory.storeBytes cap (m.store cap i b) (i + 1) rest

/-- `MemRead(BUF, i, n)` (R13). -/
def Memory.readBytes (m : Memory) (i n : Nat) : List Byte :=
  match n with
  | 0 => []
  | k + 1 => m.read i :: Memory.readBytes m (i + 1) k

/-- The indices rise strictly from `lo` on, and no entry equals what an unlisted index reads. -/
def Memory.wfFrom (lo : Nat) (m : Memory) : Bool :=
  match m with
  | [] => true
  | (j, b) :: rest => decide (lo ≤ j) && b != Memory.unlisted && Memory.wfFrom (j + 1) rest

/-- The canonical form: two buffers that read alike are then equal. -/
def Memory.wf (m : Memory) : Bool := Memory.wfFrom 0 m

/-- Every entry lies below the buffer's capacity (R61). -/
def Memory.within (cap : Nat) (m : Memory) : Bool := m.all fun cell => decide (cell.1 < cap)

/-! ### Clearing (R44) -/

/-- `clear(C)`. -/
def State.clearC (s : State) : State := { s with code := 0, codestr := [], cv := false }

/-- `clear(V)`. -/
def State.clearV (s : State) : State :=
  State.clearC { s with offset := 0, value := 0, vv := false }

/-- `clear(D)`. -/
def State.clearD (s : State) : State :=
  State.clearV { s with digest := [], dlen := 0, dv := false }

/-- `clear(K)`. -/
def State.clearK (s : State) : State :=
  State.clearD { s with key := [], klen := 0, kv := false }

/-- `clear(M)`. -/
def State.clearM (s : State) : State :=
  State.clearD { s with counter := 0, msg := [], trem := 0, mv := false }

/-! ### Writing a result group -/

/-- Group K takes a decoded key (R160). -/
def State.putK (s : State) (bytes : List Byte) : State :=
  { s with key := s.key.storeBytes Config.keyMax 0 bytes
           klen := BitVec.ofNat 16 bytes.length
           kv := true }

/-- Group M takes a counter, its big-endian bytes and the seconds remaining (R182, R185). -/
def State.putM (s : State) (counter : Word64) (trem : Word32) : State :=
  { s with counter := counter
           msg := s.msg.storeBytes Config.msgLen 0 (beBytes Config.msgLen counter.toNat)
           trem := trem
           mv := true }

/-- Group D takes a digest (R201). -/
def State.putD (s : State) (bytes : List Byte) : State :=
  { s with digest := s.digest.storeBytes Config.digestMax 0 bytes
           dlen := BitVec.ofNat 8 bytes.length
           dv := true }

/-- Group V takes an offset and a value (R281). -/
def State.putV (s : State) (offset : BitVec 4) (value : Word32) : State :=
  { s with offset := offset, value := value, vv := true }

/-- Group C takes a code and its digit characters (R289). -/
def State.putC (s : State) (code : Word32) (chars : List Byte) : State :=
  { s with code := code
           codestr := s.codestr.storeBytes Config.codeMax 0 chars
           cv := true }

/-! ### Completion -/

/-- The completion code of an error (R321). -/
def ErrorKind.code (e : ErrorKind) : BitVec 4 :=
  match e with
  | .invalidSecretEncoding => 1
  | .emptySecret => 2
  | .invalidDigits => 3
  | .invalidPeriod => 4
  | .illegalCommand => 8
  | .sequence => 9
  | .secretOverflow => 10
  | .truncationRange => 11

/-- `complete(c)` (R326): record the code, set the sticky flag if it is not 0, answer the host. -/
def State.complete (s : State) (c : BitVec 4) : State :=
  { s with lasterr := c, ef := stickyError s.ef c, reply := some (.cmd c) }

/-- `raise e`, after the failure clearing that the command's own rule gives (R13, R130): the block's error
entry (R326). Nothing else is saved and control goes nowhere. -/
def State.raise (s : State) (e : ErrorKind) : State := s.complete e.code

/-- An illegal command word (30_encoding.md R100). -/
def State.illegalCommand (s : State) : State := s.raise .illegalCommand

end Sys2Proof.Machine
end

