-- ==== Sys2Proof/Machine/Operands.lean ====
section
/-! DEFINITION. What a command or a transaction works on: the register space (30_encoding.md R93), the buffer
space (20_memory.md R61, R94), and the byte strings commands read from the buffers (R13). The one operand a
command word carries, `imm8`, is used as it is (R99). -/

namespace Sys2Proof.Machine

/-- The register with an index; 0x0D to 0xFF are unmapped (R93). -/
def registerAt (idx : BitVec 8) : Option RegName :=
  match idx.toNat with
  | 0x00 => some .status
  | 0x01 => some .alg
  | 0x02 => some .digits
  | 0x03 => some .period
  | 0x04 => some .time
  | 0x05 => some .slen
  | 0x06 => some .klen
  | 0x07 => some .counter
  | 0x08 => some .trem
  | 0x09 => some .dlen
  | 0x0A => some .offset
  | 0x0B => some .value
  | 0x0C => some .code
  | _ => none

/-- A register's width in bits (R93). -/
def RegName.width (r : RegName) : Nat :=
  match r with
  | .status => 16
  | .alg => 2
  | .digits => 8
  | .period => 32
  | .time => 64
  | .slen => 16
  | .klen => 16
  | .counter => 64
  | .trem => 32
  | .dlen => 8
  | .offset => 4
  | .value => 32
  | .code => 32

/-- The four read-write registers; the others are read-only (R93). -/
def RegName.writable (r : RegName) : Bool :=
  match r with
  | .alg | .digits | .period | .time => true
  | .status | .slen | .klen | .counter | .trem | .dlen | .offset | .value | .code => false

/-- A register's contents, zero-extended to the port's width (R63); `PERIOD` too is zero-extended (R64). -/
def State.register (s : State) (r : RegName) : Word64 :=
  match r with
  | .status => s.status.setWidth 64
  | .alg => s.alg.setWidth 64
  | .digits => s.digits.setWidth 64
  | .period => s.period.setWidth 64
  | .time => s.time
  | .slen => s.slen.setWidth 64
  | .klen => s.klen.setWidth 64
  | .counter => s.counter
  | .trem => s.trem.setWidth 64
  | .dlen => s.dlen.setWidth 64
  | .offset => s.offset.setWidth 64
  | .value => s.value.setWidth 64
  | .code => s.code.setWidth 64

/-- An accepted register write (R65): first the clearing of R45, then the register takes the data's low bits.
A read-only register takes nothing (R66). -/
def State.setRegister (s : State) (r : RegName) (data : Word64) : State :=
  match r with
  | .alg => { s.clearD with alg := data.setWidth 2 }
  | .digits => { s.clearC with digits := data.setWidth 8 }
  | .period => { s.clearM with period := data.setWidth 32 }
  | .time => { s.clearM with time := data }
  | .status | .slen | .klen | .counter | .trem | .dlen | .offset | .value | .code => s

/-- The buffer with an id; 5, 6 and 7 are unmapped (R61). -/
def bufferAt (id : BitVec 3) : Option BufName :=
  match id.toNat with
  | 0 => some .secret
  | 1 => some .key
  | 2 => some .msg
  | 3 => some .digest
  | 4 => some .codestr
  | _ => none

/-- A buffer's capacity in bytes (R61). -/
def BufName.capacity (b : BufName) : Nat :=
  match b with
  | .secret => Config.secretMax
  | .key => Config.keyMax
  | .msg => Config.msgLen
  | .digest => Config.digestMax
  | .codestr => Config.codeMax

/-- A buffer's contents. -/
def State.buffer (s : State) (b : BufName) : Memory :=
  match b with
  | .secret => s.secret
  | .key => s.key
  | .msg => s.msg
  | .digest => s.digest
  | .codestr => s.codestr

/-- The secret text, `SECRET[0 .. SLEN-1]` (R26). -/
def State.secretText (s : State) : List Byte := s.secret.readBytes 0 s.slen.toNat

/-- The key, `KEY[0 .. KLEN-1]` (R28). -/
def State.keyBytes (s : State) : List Byte := s.key.readBytes 0 s.klen.toNat

/-- The message, `MSG[0 .. 7]` (R29). -/
def State.msgBytes (s : State) : List Byte := s.msg.readBytes 0 Config.msgLen

/-- The digest, `DIGEST[0 .. DLEN-1]` (R30). -/
def State.digestBytes (s : State) : List Byte := s.digest.readBytes 0 s.dlen.toNat

/-- The code string, `CODESTR[0 .. DIGITS-1]` (R32). -/
def State.codeText (s : State) : List Byte := s.codestr.readBytes 0 s.digits.toNat

end Sys2Proof.Machine
end

