-- ==== Sys2Proof/Machine/Buffer.lean ====
section
/-! DEFINITION. Loading the secret and keeping the error record: `NOP`, `CLR`, `PUSH`, `CLRERR`
(40_buffer_commands.md R130 to R134). -/

namespace Sys2Proof.Machine

/-- `NOP` (R131): only completes, so `LASTERR` becomes 0. -/
def execNop (s : State) : Host.Outcome State Fault Refusal := .next (s.complete 0)

/-- `CLR` (R132). -/
def execClr (s : State) : Host.Outcome State Fault Refusal :=
  let s := s.clearK
  .next (State.complete { s with secret := [], slen := 0, ovf := false } 0)

/-- `PUSH imm8` (R133): the character goes to `SECRET[SLEN]`, with `SLEN` as before the command; a full buffer
drops it, sets `OVF` and raises `SecretOverflow`. -/
def execPush (imm8 : Byte) (s : State) : Host.Outcome State Fault Refusal :=
  let s := s.clearK
  if s.slen.toNat = Config.secretMax then
    .next (State.raise { s with ovf := true } .secretOverflow)
  else
    .next (State.complete { s with
      secret := s.secret.storeBytes Config.secretMax s.slen.toNat [imm8]
      slen := s.slen + 1 } 0)

/-- `CLRERR` (R134): the only command that can clear `EF`; `OVF` is not part of the error record. -/
def execClrerr (s : State) : Host.Outcome State Fault Refusal :=
  .next { s with ef := false, lasterr := 0, reply := some (.cmd 0) }

end Sys2Proof.Machine
end

