-- ==== Sys2Proof/Machine/Base32.lean ====
section
/-! DEFINITION. The Base32 decoder, `DEC` and `DECU` (41_base32_decoder.md R150 to R166). -/

namespace Sys2Proof.Machine

/-- The padding character `=` (00_scope.md R14). -/
def padChar : Byte := 0x3D

/-- `upcase(c)`: the letters `a` to `z` onto `A` to `Z`, no other code (R152). -/
def upcase (c : Byte) : Byte := if 0x61 ≤ c ∧ c ≤ 0x7A then c - 0x20 else c

/-- `b32val(c)`: the 5-bit value of an alphabet character (30_encoding.md R104). -/
def b32val (c : Byte) : Option Nat :=
  if 0x41 ≤ c ∧ c ≤ 0x5A then some (c.toNat - 0x41)
  else if 0x32 ≤ c ∧ c ≤ 0x37 then some (c.toNat - 0x32 + 26)
  else none

/-- The re-packer on the characters still to come, with `nbits` bits not yet emitted in `acc`: skip `=`
anywhere (R153), fail on a character outside the alphabet (R154), else shift the value in and emit a byte when
eight bits are there (R155). Leftover bits are dropped unchecked (R158). -/
def b32pack (acc nbits : Nat) (chars : List Byte) : Option (List Byte) :=
  match chars with
  | [] => some []
  | c :: rest =>
    if c = padChar then b32pack acc nbits rest
    else
      match b32val c with
      | none => none
      | some v =>
        let acc := (acc <<< 5) ||| v
        let nbits := nbits + 5
        if 8 ≤ nbits then
          let nbits := nbits - 8
          (b32pack (acc &&& ((1 <<< nbits) - 1)) nbits rest).map
            (BitVec.ofNat 8 ((acc >>> nbits) &&& 0xFF) :: ·)
        else b32pack acc nbits rest

/-- `b32decode(chars, fold)` (R156); `none` is the spec's `fail`. -/
def b32decode (chars : List Byte) (fold : Bool) : Option (List Byte) :=
  b32pack 0 0 (if fold then chars.map upcase else chars)

/-- `DEC` and `DECU` differ only in the folding (R161): the overflow test, the decode, the write of group K.
On a failure group K stays cleared (R162). -/
def decodeSecret (fold : Bool) (s : State) : State :=
  let s := s.clearK
  if s.ovf then s.raise .secretOverflow
  else
    match b32decode s.secretText fold with
    | none => s.raise .invalidSecretEncoding
    | some key => (s.putK key).complete 0

/-- `DEC` (R160): the codec contract taken literally, no folding. -/
def execDec (s : State) : Host.Outcome State Fault Refusal := .next (decodeSecret false s)

/-- `DECU` (R161): folding on the fly; `SECRET` itself is not changed. -/
def execDecu (s : State) : Host.Outcome State Fault Refusal := .next (decodeSecret true s)

end Sys2Proof.Machine
end

