-- ==== Sys2Proof/Machine/Counter.lean ====
section
/-! DEFINITION. The time-counter unit, `CTR` (42_time_counter.md R180 to R187). -/

namespace Sys2Proof.Machine

/-- The counter `floor(TIME / p)` and the seconds remaining `p - (TIME mod p)` for `p = signed_32(PERIOD)`
(R184, R186), or none where `p <= 0` (R183): nothing is divided by zero or by a negative number. -/
def timeStep (time : Word64) (period : Word32) : Option (Word64 × Word32) :=
  if period.toInt ≤ 0 then none
  else
    let p := period.toInt.toNat
    some (BitVec.ofNat 64 (time.toNat / p), BitVec.ofNat 32 (p - time.toNat % p))

/-- `CTR` (R182). -/
def execCtr (s : State) : Host.Outcome State Fault Refusal :=
  let s := s.clearM
  match timeStep s.time s.period with
  | none => .next (s.raise .invalidPeriod)
  | some (counter, trem) => .next ((s.putM counter trem).complete 0)

end Sys2Proof.Machine
end

