-- ==== Sys2Proof/Machine/Digits.lean ====
section
/-! DEFINITION. The digit extractor, `TRUNC` and `MOD` (45_truncation_digits.md R280 to R293). -/

namespace Sys2Proof.Machine

/-- The offset: the low four bits of the digest's last byte (R282). -/
def truncOffset (digest : List Byte) : Nat :=
  (digest.getD (digest.length - 1) 0).toNat &&& 0x0F

/-- The value of the window at `off`: four bytes big-endian, bit 31 cleared (R283). -/
def windowValue (digest : List Byte) (off : Nat) : Word32 :=
  (((digest.getD off 0 &&& 0x7F).setWidth 32) <<< 24)
    ||| (((digest.getD (off + 1) 0).setWidth 32) <<< 16)
    ||| (((digest.getD (off + 2) 0).setWidth 32) <<< 8)
    ||| ((digest.getD (off + 3) 0).setWidth 32)

/-- Dynamic truncation (R281), or none where the window runs past the digest (R285). -/
def truncate (digest : List Byte) : Option (BitVec 4 × Word32) :=
  let off := truncOffset digest
  if off + 4 > digest.length then none
  else some (BitVec.ofNat 4 off, windowValue digest off)

/-- `TRUNC` (R281). -/
def execTrunc (s : State) : Host.Outcome State Fault Refusal :=
  let s := s.clearV
  if !s.dv then .next (s.raise .sequence)
  else
    match truncate s.digestBytes with
    | none => .next (s.raise .truncationRange)
    | some (offset, value) => .next ((s.putV offset value).complete 0)

/-- The legal digit counts (R290). -/
def digitsLegal (digits : BitVec 8) : Bool := digits == 6 || digits == 8

/-- `VALUE mod 10^DIGITS` (R291). -/
def codeOf (value : Word32) (digits : BitVec 8) : Nat := value.toNat % 10 ^ digits.toNat

/-- The decimal digits of `code` on exactly `n` characters, the most significant first (R292, R111). -/
def digitChars (n code : Nat) : List Byte :=
  (List.range n).map fun i => BitVec.ofNat 8 (0x30 + code / 10 ^ (n - 1 - i) % 10)

/-- Group C from the value and the digit count (R289, steps 7 and 8 of R301). -/
def State.putDigits (s : State) (value : Word32) : State :=
  s.putC (BitVec.ofNat 32 (codeOf value s.digits)) (digitChars s.digits.toNat (codeOf value s.digits))

/-- `MOD` (R289): `Sequence` is tested first. -/
def execMod (s : State) : Host.Outcome State Fault Refusal :=
  let s := s.clearC
  if !s.vv then .next (s.raise .sequence)
  else if !digitsLegal s.digits then .next (s.raise .invalidDigits)
  else .next ((s.putDigits s.value).complete 0)

end Sys2Proof.Machine
end

