-- ==== Sys2Proof/Machine/HashCommon.lean ====
section
/-! DEFINITION. What the four hash functions share (44_hash_functions.md R220, R221): padding, blocks, words. -/

namespace Sys2Proof.Machine

/-- The number of zero bytes of the padding: the least that makes whole blocks (R221). -/
def padZeros (len block lenBytes : Nat) : Nat :=
  (block - (len + 1 + lenBytes) % block) % block

/-- `pad(m, B, lenbytes, order)`; `lenField` writes the bit length in the function's byte order (R221). -/
def padMessage (m : List Byte) (block lenBytes : Nat) (lenField : Nat → Nat → List Byte) :
    List Byte :=
  m ++ 0x80 :: List.replicate (padZeros m.length block lenBytes) 0x00
    ++ lenField lenBytes (8 * m.length)

/-- The first `count` pieces of `size` bytes. -/
def pieces (size : Nat) (count : Nat) (bytes : List Byte) : List (List Byte) :=
  match count with
  | 0 => []
  | k + 1 => bytes.take size :: pieces size k (bytes.drop size)

/-- The blocks of a padded message, in order (R220). -/
def blocksOf (block : Nat) (padded : List Byte) : List (List Byte) :=
  pieces block (padded.length / block) padded

/-- The sixteen words of a block, read by `from` (`from_be` for the SHA functions, `from_le` for MD5). -/
def blockWords (width : Nat) (fromBytes : List Byte → Nat) (blk : List Byte) :
    List (BitVec width) :=
  (pieces (width / 8) 16 blk).map fun b => BitVec.ofNat width (fromBytes b)

end Sys2Proof.Machine
end

