-- ==== Sys2Proof/Machine/Md5.lean ====
section
/-! DEFINITION. MD5, little-endian throughout (44_hash_functions.md R260 to R265). -/

namespace Sys2Proof.Machine

/-- The four state words, and the four working variables. -/
structure Md5Regs where
  a : Word32
  b : Word32
  c : Word32
  d : Word32
  deriving DecidableEq, Repr

/-- The initial state (R260). -/
def md5Init : Md5Regs := ⟨0x67452301, 0xEFCDAB89, 0x98BADCFE, 0x10325476⟩

/-- `T[0 .. 63]` (R263). -/
def md5T : List Word32 :=
  [0xD76AA478, 0xE8C7B756, 0x242070DB, 0xC1BDCEEE, 0xF57C0FAF, 0x4787C62A, 0xA8304613, 0xFD469501] ++
  [0x698098D8, 0x8B44F7AF, 0xFFFF5BB1, 0x895CD7BE, 0x6B901122, 0xFD987193, 0xA679438E, 0x49B40821] ++
  [0xF61E2562, 0xC040B340, 0x265E5A51, 0xE9B6C7AA, 0xD62F105D, 0x02441453, 0xD8A1E681, 0xE7D3FBC8] ++
  [0x21E1CDE6, 0xC33707D6, 0xF4D50D87, 0x455A14ED, 0xA9E3E905, 0xFCEFA3F8, 0x676F02D9, 0x8D2A4C8A] ++
  [0xFFFA3942, 0x8771F681, 0x6D9D6122, 0xFDE5380C, 0xA4BEEA44, 0x4BDECFA9, 0xF6BB4B60, 0xBEBFBC70] ++
  [0x289B7EC6, 0xEAA127FA, 0xD4EF3085, 0x04881D05, 0xD9D4D039, 0xE6DB99E5, 0x1FA27CF8, 0xC4AC5665] ++
  [0xF4292244, 0x432AFF97, 0xAB9423A7, 0xFC93A039, 0x655B59C3, 0x8F0CCC92, 0xFFEFF47D, 0x85845DD1] ++
  [0x6FA87E4F, 0xFE2CE6E0, 0xA3014314, 0x4E0811A1, 0xF7537E82, 0xBD3AF235, 0x2AD7D2BB, 0xEB86D391]

/-- `S[i]`: four amounts for each sixteen steps, repeating (R264). -/
def md5Shift (i : Nat) : Nat :=
  if i ≤ 15 then [7, 12, 17, 22].getD (i % 4) 0
  else if i ≤ 31 then [5, 9, 14, 20].getD (i % 4) 0
  else if i ≤ 47 then [4, 11, 16, 23].getD (i % 4) 0
  else [6, 10, 15, 21].getD (i % 4) 0

/-- `g(i)`, the message word of step `i` (R264). -/
def md5Word (i : Nat) : Nat :=
  if i ≤ 15 then i
  else if i ≤ 31 then (5 * i + 1) % 16
  else if i ≤ 47 then (3 * i + 5) % 16
  else (7 * i) % 16

/-- The function of step `i` (R265). -/
def md5Select (i : Nat) (b c d : Word32) : Word32 :=
  if i ≤ 15 then (b &&& c) ||| (~~~b &&& d)
  else if i ≤ 31 then (d &&& b) ||| (~~~d &&& c)
  else if i ≤ 47 then b ^^^ c ^^^ d
  else c ^^^ (b ||| ~~~d)

/-- One step on the message words `x`, with its constant (R265). -/
def md5Step (x : List Word32) (r : Md5Regs) (t : Word32) (i : Nat) : Md5Regs :=
  { a := r.d
    b := r.b
      + (r.a + md5Select i r.b r.c r.d + t + x.getD (md5Word i) 0).rotateLeft (md5Shift i)
    c := r.b
    d := r.c }

/-- `MD5_compress(s, blk)` (R265). -/
def md5Compress (s : Md5Regs) (blk : List Byte) : Md5Regs :=
  let x := blockWords 32 fromLe blk
  let r := md5T.zipIdx.foldl (fun r ti => md5Step x r ti.1 ti.2) s
  ⟨s.a + r.a, s.b + r.b, s.c + r.c, s.d + r.d⟩

/-- The state as bytes, little-endian (R260, R262). -/
def Md5Regs.bytes (r : Md5Regs) : List Byte :=
  [r.a, r.b, r.c, r.d].flatMap fun w => leBytes 4 w.toNat

/-- `MD5(m)` (R260). -/
def md5 (m : List Byte) : List Byte :=
  ((blocksOf 64 (padMessage m 64 8 leBytes)).foldl md5Compress md5Init).bytes

end Sys2Proof.Machine
end

