-- ==== Sys2Proof/Machine/Sha1.lean ====
section
/-! DEFINITION. SHA1 (44_hash_functions.md R230, R231). -/

namespace Sys2Proof.Machine

/-- The five chaining words, and the five working variables. -/
structure Sha1Regs where
  a : Word32
  b : Word32
  c : Word32
  d : Word32
  e : Word32
  deriving DecidableEq, Repr

/-- The initial chaining value (R230). -/
def sha1Init : Sha1Regs := ⟨0x67452301, 0xEFCDAB89, 0x98BADCFE, 0x10325476, 0xC3D2E1F0⟩

/-- `n` more words of the schedule, onto the words so far held latest first: `w[t-3]` is at index 2 (R231). -/
def sha1Extend (n : Nat) (latest : List Word32) : List Word32 :=
  match n with
  | 0 => latest
  | k + 1 =>
    sha1Extend k
      ((latest.getD 2 0 ^^^ latest.getD 7 0 ^^^ latest.getD 13 0 ^^^ latest.getD 15 0).rotateLeft 1
        :: latest)

/-- `w[0 .. 79]` (R231). -/
def sha1Schedule (blk : List Byte) : List Word32 :=
  (sha1Extend 64 (blockWords 32 fromBe blk).reverse).reverse

/-- The round function and constant of round `t` (R231). -/
def sha1Select (t : Nat) (b c d : Word32) : Word32 × Word32 :=
  if t ≤ 19 then ((b &&& c) ||| (~~~b &&& d), 0x5A827999)
  else if t ≤ 39 then (b ^^^ c ^^^ d, 0x6ED9EBA1)
  else if t ≤ 59 then ((b &&& c) ||| (b &&& d) ||| (c &&& d), 0x8F1BBCDC)
  else (b ^^^ c ^^^ d, 0xCA62C1D6)

/-- One round, with its schedule word (R231). -/
def sha1Round (r : Sha1Regs) (w : Word32) (t : Nat) : Sha1Regs :=
  { a := r.a.rotateLeft 5 + (sha1Select t r.b r.c r.d).1 + r.e + (sha1Select t r.b r.c r.d).2 + w
    b := r.a
    c := r.b.rotateLeft 30
    d := r.c
    e := r.d }

/-- `SHA1_compress(h, blk)` (R231). -/
def sha1Compress (h : Sha1Regs) (blk : List Byte) : Sha1Regs :=
  let r := (sha1Schedule blk).zipIdx.foldl (fun r wt => sha1Round r wt.1 wt.2) h
  ⟨h.a + r.a, h.b + r.b, h.c + r.c, h.d + r.d, h.e + r.e⟩

/-- The chaining value as bytes (R230). -/
def Sha1Regs.bytes (r : Sha1Regs) : List Byte :=
  [r.a, r.b, r.c, r.d, r.e].flatMap fun w => beBytes 4 w.toNat

/-- `SHA1(m)` (R230). -/
def sha1 (m : List Byte) : List Byte :=
  ((blocksOf 64 (padMessage m 64 8 beBytes)).foldl sha1Compress sha1Init).bytes

end Sys2Proof.Machine
end

