-- ==== Sys2Proof/Machine/Sha2.lean ====
section
/-! DEFINITION. SHA256 and SHA512 (44_hash_functions.md R240 to R243, R250 to R253). -/

namespace Sys2Proof.Machine

/-- The eight chaining words, and the eight working variables (`h` is the spec's `hh`). -/
structure Sha2Regs (width : Nat) where
  a : BitVec width
  b : BitVec width
  c : BitVec width
  d : BitVec width
  e : BitVec width
  f : BitVec width
  g : BitVec width
  h : BitVec width
  deriving DecidableEq, Repr

/-- The sum of two chaining values, word by word. -/
def Sha2Regs.add {width : Nat} (x y : Sha2Regs width) : Sha2Regs width :=
  ⟨x.a + y.a, x.b + y.b, x.c + y.c, x.d + y.d, x.e + y.e, x.f + y.f, x.g + y.g, x.h + y.h⟩

/-- The chaining value as bytes, big-endian (R240, R250). -/
def Sha2Regs.bytes {width : Nat} (r : Sha2Regs width) : List Byte :=
  [r.a, r.b, r.c, r.d, r.e, r.f, r.g, r.h].flatMap fun w => beBytes (width / 8) w.toNat

/-- `ch` (R243, R253). -/
def sha2Ch {width : Nat} (e f g : BitVec width) : BitVec width := (e &&& f) ^^^ (~~~e &&& g)

/-- `maj` (R243, R253). -/
def sha2Maj {width : Nat} (a b c : BitVec width) : BitVec width :=
  (a &&& b) ^^^ (a &&& c) ^^^ (b &&& c)

/-- The assignments that end a round, all reading the values before it (R243, R253). -/
def Sha2Regs.shift {width : Nat} (r : Sha2Regs width) (t1 t2 : BitVec width) : Sha2Regs width :=
  ⟨t1 + t2, r.a, r.b, r.c, r.d + t1, r.e, r.f, r.g⟩

/-! ### SHA256 -/

/-- `H256` (R241). -/
def sha256Init : Sha2Regs 32 :=
  ⟨0x6A09E667, 0xBB67AE85, 0x3C6EF372, 0xA54FF53A,
   0x510E527F, 0x9B05688C, 0x1F83D9AB, 0x5BE0CD19⟩

/-- `K256[0 .. 63]` (R242). -/
def k256 : List Word32 :=
  [0x428A2F98, 0x71374491, 0xB5C0FBCF, 0xE9B5DBA5, 0x3956C25B, 0x59F111F1, 0x923F82A4, 0xAB1C5ED5] ++
  [0xD807AA98, 0x12835B01, 0x243185BE, 0x550C7DC3, 0x72BE5D74, 0x80DEB1FE, 0x9BDC06A7, 0xC19BF174] ++
  [0xE49B69C1, 0xEFBE4786, 0x0FC19DC6, 0x240CA1CC, 0x2DE92C6F, 0x4A7484AA, 0x5CB0A9DC, 0x76F988DA] ++
  [0x983E5152, 0xA831C66D, 0xB00327C8, 0xBF597FC7, 0xC6E00BF3, 0xD5A79147, 0x06CA6351, 0x14292967] ++
  [0x27B70A85, 0x2E1B2138, 0x4D2C6DFC, 0x53380D13, 0x650A7354, 0x766A0ABB, 0x81C2C92E, 0x92722C85] ++
  [0xA2BFE8A1, 0xA81A664B, 0xC24B8B70, 0xC76C51A3, 0xD192E819, 0xD6990624, 0xF40E3585, 0x106AA070] ++
  [0x19A4C116, 0x1E376C08, 0x2748774C, 0x34B0BCB5, 0x391C0CB3, 0x4ED8AA4A, 0x5B9CCA4F, 0x682E6FF3] ++
  [0x748F82EE, 0x78A5636F, 0x84C87814, 0x8CC70208, 0x90BEFFFA, 0xA4506CEB, 0xBEF9A3F7, 0xC67178F2]

/-- `n` more words of the schedule, latest first: `w[t-2]` is at index 1 (R243). -/
def sha256Extend (n : Nat) (latest : List Word32) : List Word32 :=
  match n with
  | 0 => latest
  | k + 1 =>
    let x := latest.getD 14 0
    let y := latest.getD 1 0
    let s0 := x.rotateRight 7 ^^^ x.rotateRight 18 ^^^ (x >>> 3)
    let s1 := y.rotateRight 17 ^^^ y.rotateRight 19 ^^^ (y >>> 10)
    sha256Extend k ((latest.getD 15 0 + s0 + latest.getD 6 0 + s1) :: latest)

/-- `w[0 .. 63]` (R243). -/
def sha256Schedule (blk : List Byte) : List Word32 :=
  (sha256Extend 48 (blockWords 32 fromBe blk).reverse).reverse

/-- One round, with its constant and its schedule word (R243). -/
def sha256Round (r : Sha2Regs 32) (k w : Word32) : Sha2Regs 32 :=
  let bigS1 := r.e.rotateRight 6 ^^^ r.e.rotateRight 11 ^^^ r.e.rotateRight 25
  let bigS0 := r.a.rotateRight 2 ^^^ r.a.rotateRight 13 ^^^ r.a.rotateRight 22
  r.shift (r.h + bigS1 + sha2Ch r.e r.f r.g + k + w) (bigS0 + sha2Maj r.a r.b r.c)

/-- `SHA256_compress(h, blk)` (R243). -/
def sha256Compress (h : Sha2Regs 32) (blk : List Byte) : Sha2Regs 32 :=
  h.add ((k256.zip (sha256Schedule blk)).foldl (fun r kw => sha256Round r kw.1 kw.2) h)

/-- `SHA256(m)` (R240). -/
def sha256 (m : List Byte) : List Byte :=
  ((blocksOf 64 (padMessage m 64 8 beBytes)).foldl sha256Compress sha256Init).bytes

/-! ### SHA512 -/

/-- `H512` (R251). -/
def sha512Init : Sha2Regs 64 :=
  ⟨0x6A09E667F3BCC908, 0xBB67AE8584CAA73B, 0x3C6EF372FE94F82B, 0xA54FF53A5F1D36F1,
   0x510E527FADE682D1, 0x9B05688C2B3E6C1F, 0x1F83D9ABFB41BD6B, 0x5BE0CD19137E2179⟩

/-- `K512[0 .. 79]` (R252). -/
def k512 : List Word64 :=
  [0x428A2F98D728AE22, 0x7137449123EF65CD, 0xB5C0FBCFEC4D3B2F, 0xE9B5DBA58189DBBC] ++
  [0x3956C25BF348B538, 0x59F111F1B605D019, 0x923F82A4AF194F9B, 0xAB1C5ED5DA6D8118] ++
  [0xD807AA98A3030242, 0x12835B0145706FBE, 0x243185BE4EE4B28C, 0x550C7DC3D5FFB4E2] ++
  [0x72BE5D74F27B896F, 0x80DEB1FE3B1696B1, 0x9BDC06A725C71235, 0xC19BF174CF692694] ++
  [0xE49B69C19EF14AD2, 0xEFBE4786384F25E3, 0x0FC19DC68B8CD5B5, 0x240CA1CC77AC9C65] ++
  [0x2DE92C6F592B0275, 0x4A7484AA6EA6E483, 0x5CB0A9DCBD41FBD4, 0x76F988DA831153B5] ++
  [0x983E5152EE66DFAB, 0xA831C66D2DB43210, 0xB00327C898FB213F, 0xBF597FC7BEEF0EE4] ++
  [0xC6E00BF33DA88FC2, 0xD5A79147930AA725, 0x06CA6351E003826F, 0x142929670A0E6E70] ++
  [0x27B70A8546D22FFC, 0x2E1B21385C26C926, 0x4D2C6DFC5AC42AED, 0x53380D139D95B3DF] ++
  [0x650A73548BAF63DE, 0x766A0ABB3C77B2A8, 0x81C2C92E47EDAEE6, 0x92722C851482353B] ++
  [0xA2BFE8A14CF10364, 0xA81A664BBC423001, 0xC24B8B70D0F89791, 0xC76C51A30654BE30] ++
  [0xD192E819D6EF5218, 0xD69906245565A910, 0xF40E35855771202A, 0x106AA07032BBD1B8] ++
  [0x19A4C116B8D2D0C8, 0x1E376C085141AB53, 0x2748774CDF8EEB99, 0x34B0BCB5E19B48A8] ++
  [0x391C0CB3C5C95A63, 0x4ED8AA4AE3418ACB, 0x5B9CCA4F7763E373, 0x682E6FF3D6B2B8A3] ++
  [0x748F82EE5DEFB2FC, 0x78A5636F43172F60, 0x84C87814A1F0AB72, 0x8CC702081A6439EC] ++
  [0x90BEFFFA23631E28, 0xA4506CEBDE82BDE9, 0xBEF9A3F7B2C67915, 0xC67178F2E372532B] ++
  [0xCA273ECEEA26619C, 0xD186B8C721C0C207, 0xEADA7DD6CDE0EB1E, 0xF57D4F7FEE6ED178] ++
  [0x06F067AA72176FBA, 0x0A637DC5A2C898A6, 0x113F9804BEF90DAE, 0x1B710B35131C471B] ++
  [0x28DB77F523047D84, 0x32CAAB7B40C72493, 0x3C9EBE0A15C9BEBC, 0x431D67C49C100D4C] ++
  [0x4CC5D4BECB3E42B6, 0x597F299CFC657E2A, 0x5FCB6FAB3AD6FAEC, 0x6C44198C4A475817]

/-- `n` more words of the schedule, latest first (R253). -/
def sha512Extend (n : Nat) (latest : List Word64) : List Word64 :=
  match n with
  | 0 => latest
  | k + 1 =>
    let x := latest.getD 14 0
    let y := latest.getD 1 0
    let s0 := x.rotateRight 1 ^^^ x.rotateRight 8 ^^^ (x >>> 7)
    let s1 := y.rotateRight 19 ^^^ y.rotateRight 61 ^^^ (y >>> 6)
    sha512Extend k ((latest.getD 15 0 + s0 + latest.getD 6 0 + s1) :: latest)

/-- `w[0 .. 79]` (R253). -/
def sha512Schedule (blk : List Byte) : List Word64 :=
  (sha512Extend 64 (blockWords 64 fromBe blk).reverse).reverse

/-- One round, with its constant and its schedule word (R253). -/
def sha512Round (r : Sha2Regs 64) (k w : Word64) : Sha2Regs 64 :=
  let bigS1 := r.e.rotateRight 14 ^^^ r.e.rotateRight 18 ^^^ r.e.rotateRight 41
  let bigS0 := r.a.rotateRight 28 ^^^ r.a.rotateRight 34 ^^^ r.a.rotateRight 39
  r.shift (r.h + bigS1 + sha2Ch r.e r.f r.g + k + w) (bigS0 + sha2Maj r.a r.b r.c)

/-- `SHA512_compress(h, blk)` (R253). -/
def sha512Compress (h : Sha2Regs 64) (blk : List Byte) : Sha2Regs 64 :=
  h.add ((k512.zip (sha512Schedule blk)).foldl (fun r kw => sha512Round r kw.1 kw.2) h)

/-- `SHA512(m)`, with a 16-byte length field (R250, R221). -/
def sha512 (m : List Byte) : List Byte :=
  ((blocksOf 128 (padMessage m 128 16 beBytes)).foldl sha512Compress sha512Init).bytes

end Sys2Proof.Machine
end

