-- ==== Sys2Proof/Machine/Hmac.lean ====
section
/-! DEFINITION. The HMAC engine and `MAC` (43_hmac.md R201 to R207). -/

namespace Sys2Proof.Machine

/-- The four algorithms of the closed enumeration (30_encoding.md R108). -/
inductive Algorithm where
  | sha1 | sha256 | sha512 | md5
  deriving DecidableEq, Repr

/-- The algorithm of an `ALG` code; every 2-bit code names one (R108). -/
def algorithmOf (alg : BitVec 2) : Algorithm :=
  match alg.toNat with
  | 0 => .sha1
  | 1 => .sha256
  | 2 => .sha512
  | _ => .md5

/-- The hash function `H` (R203). -/
def Algorithm.hash (a : Algorithm) (m : List Byte) : List Byte :=
  match a with
  | .sha1 => Sys2Proof.Machine.sha1 m
  | .sha256 => Sys2Proof.Machine.sha256 m
  | .sha512 => Sys2Proof.Machine.sha512 m
  | .md5 => Sys2Proof.Machine.md5 m

/-- The block size `B` in bytes (R203). -/
def Algorithm.blockSize (a : Algorithm) : Nat :=
  match a with
  | .sha1 => 64
  | .sha256 => 64
  | .sha512 => 128
  | .md5 => 64

/-- The digest length `L` in bytes (R203). -/
def Algorithm.digestLength (a : Algorithm) : Nat :=
  match a with
  | .sha1 => 20
  | .sha256 => 32
  | .sha512 => 64
  | .md5 => 16

/-- `K0`: a key longer than a block is hashed first, then zeros fill the block (R204, R205). -/
def hmacPaddedKey (a : Algorithm) (key : List Byte) : List Byte :=
  let k := if key.length > a.blockSize then a.hash key else key
  k ++ List.replicate (a.blockSize - k.length) 0x00

/-- `HMAC(alg, key, msg)` (R204). -/
def hmac (a : Algorithm) (key msg : List Byte) : List Byte :=
  let k0 := hmacPaddedKey a key
  let inner := a.hash (k0.map (· ^^^ 0x36) ++ msg)
  a.hash (k0.map (· ^^^ 0x5C) ++ inner)

/-- `MAC` (R201): `Sequence` without a valid key and a valid message (R202). -/
def execMac (s : State) : Host.Outcome State Fault Refusal :=
  let s := s.clearD
  if !s.kv || !s.mv then .next (s.raise .sequence)
  else .next ((s.putD (hmac (algorithmOf s.alg) s.keyBytes s.msgBytes)).complete 0)

end Sys2Proof.Machine
end

