-- ==== Sys2Proof/Machine/Generate.lean ====
section
/-! DEFINITION. `GEN`, the whole of AUTH's `generate` (46_generate.md R300 to R310). -/

namespace Sys2Proof.Machine

/-- `is_ws(c)` (R303; log 9). -/
def isWhitespace (c : Byte) : Bool := Config.whitespace.contains c

/-- The secret is empty, or all whitespace (R303). -/
def secretBlank (text : List Byte) : Bool := text.all isWhitespace

/-- `raise e` within `GEN`: every group is cleared, whatever had been written so far (R301, R306). -/
def State.raiseAll (s : State) (e : ErrorKind) : State := (s.clearK.clearM).raise e

/-- `GEN` (R301): the tests in the order of R305, then the four units in AUTH's order. -/
def execGen (s : State) : Host.Outcome State Fault Refusal :=
  let s := s.clearK.clearM
  if s.ovf then .next (s.raiseAll .secretOverflow)
  else if secretBlank s.secretText then .next (s.raiseAll .emptySecret)
  else if !digitsLegal s.digits then .next (s.raiseAll .invalidDigits)
  else
    match timeStep s.time s.period with
    | none => .next (s.raiseAll .invalidPeriod)
    | some (counter, trem) =>
      let s := s.putM counter trem
      match b32decode s.secretText true with
      | none => .next (s.raiseAll .invalidSecretEncoding)
      | some key =>
        let s := s.putK key
        let digest := hmac (algorithmOf s.alg) key (beBytes Config.msgLen counter.toNat)
        let s := s.putD digest
        match truncate digest with
        | none => .next (s.raiseAll .truncationRange)
        | some (offset, value) =>
          .next (((s.putV offset value).putDigits value).complete 0)

end Sys2Proof.Machine
end

