-- ==== Sys2Proof/Machine/Dispatch.lean ====
section
/-! DEFINITION. One arm per command: each calls the command's own meaning. -/

namespace Sys2Proof.Machine

/-- The meaning of a command on a state (30_encoding.md R97). -/
def exec (i : Instr) (s : State) : Host.Outcome State Fault Refusal :=
  match i with
  | .nop => Sys2Proof.Machine.execNop s
  | .clr => Sys2Proof.Machine.execClr s
  | .push imm8 => Sys2Proof.Machine.execPush imm8 s
  | .dec => Sys2Proof.Machine.execDec s
  | .decu => Sys2Proof.Machine.execDecu s
  | .ctr => Sys2Proof.Machine.execCtr s
  | .mac => Sys2Proof.Machine.execMac s
  | .trunc => Sys2Proof.Machine.execTrunc s
  | .mod => Sys2Proof.Machine.execMod s
  | .gen => Sys2Proof.Machine.execGen s
  | .clrerr => Sys2Proof.Machine.execClrerr s

end Sys2Proof.Machine
end

