-- ==== Sys2Proof/Machine/Port.lean ====
section
/-! DEFINITION. The five transactions of the host port (20_memory.md R62 to R69), each on the state from which
it has been taken off the pending list. -/

namespace Sys2Proof.Machine

/-- `RegRead(idx)` (R63): no read has a side effect; an unmapped index is refused. -/
def regRead (idx : BitVec 8) (s : State) : State :=
  match registerAt idx with
  | some r => { s with reply := some (.regRead true (s.register r)) }
  | none => { s with reply := some (.regRead false 0) }

/-- A write of `data` to a register is accepted: the register is writable and the data fits its width (R65). -/
def writeAccepted (r : RegName) (data : Word64) : Bool :=
  r.writable && decide (data.toNat < 2 ^ r.width)

/-- `RegWrite(idx, data)` (R65, R66): never truncated; a refused write changes nothing and records no error
(R329). -/
def regWrite (idx : BitVec 8) (data : Word64) (s : State) : State :=
  match registerAt idx with
  | some r =>
    if writeAccepted r data then { s.setRegister r data with reply := some (.regWrite true) }
    else { s with reply := some (.regWrite false) }
  | none => { s with reply := some (.regWrite false) }

/-- `BufRead(buf, i)` (R67): the index is checked against the capacity, not the length. -/
def bufRead (buf : BitVec 3) (i : Word16) (s : State) : State :=
  match bufferAt buf with
  | some b =>
    if i.toNat < b.capacity then
      { s with reply := some (.bufRead true ((s.buffer b).read i.toNat)) }
    else { s with reply := some (.bufRead false 0) }
  | none => { s with reply := some (.bufRead false 0) }

/-- `Cmd(word)` (R68): a legal word runs its command, an illegal one completes with `IllegalCommand` (R100). -/
def command (word : Word16) (s : State) : Host.Outcome State Fault Refusal :=
  match decode word with
  | .ok i => exec i s
  | .error _ => .next s.illegalCommand

/-- `Reset` (R69, R350): every piece of the block's state takes its reset value; there is no response. What the
host has still to present is the host's, and stays (log 1). -/
def resetBlock (s : State) : State := { State.reset with pending := s.pending }

/-- One transaction, whole (R70). -/
def serve (t : Transaction) (s : State) : Host.Outcome State Fault Refusal :=
  match t with
  | .regRead idx => .next (regRead idx s)
  | .regWrite idx data => .next (regWrite idx data s)
  | .bufRead buf i => .next (bufRead buf i s)
  | .cmd word => command word s
  | .reset => .next (resetBlock s)

/-- The command word of the table's word `w` of `nbits` bits, the bits above `nbits` zero. -/
def tableWord (nbits w : Nat) : Word16 := BitVec.ofNat 16 (w % 2 ^ nbits)

end Sys2Proof.Machine
end

