-- ==== Sys2Proof/Machine/Step.lean ====
section
/-! DEFINITION. One step is one host transaction (00_scope.md R7; 20_memory.md R70). -/

namespace Sys2Proof.Machine

/-- Take the first pending transaction and serve it; with none pending the block is idle and nothing changes
(10_state.md R21; log 1). -/
def step (s : State) : Host.Outcome State Fault Refusal :=
  match s.pending with
  | [] => .next s
  | t :: rest => serve t { s with pending := rest }

/-- The state in which the host presents the command word `w` of `nbits` bits next, before anything else it has
to present (log 3). -/
def State.withFetchWord (s : State) (nbits w : Nat) : State :=
  { s with pending := .cmd (tableWord nbits w) :: s.pending }

end Sys2Proof.Machine
end

