-- ==== Sys2Proof/Safety.lean ====
section
/-! DEFINITION. The terms claims are written in: what a command leaves as it was and what it clears (10_state.md
R40, R44), what it records (60_exceptions.md R326), the invariants of a safe run (R26, R28, R32, R41 to R43), the order
of GEN's errors (46_generate.md R305), `generate` as a function (R311), and the RFC 4648 encoder of R167. -/

namespace Sys2Proof.Machine

/-! ### What stays -/

/-- The configuration registers are as they were. -/
structure State.SameConfig (s t : State) : Prop where
  alg : t.alg = s.alg
  digits : t.digits = s.digits
  period : t.period = s.period
  time : t.time = s.time

/-- The secret buffer, its length and its overflow flag are as they were. -/
structure State.SameSecret (s t : State) : Prop where
  bytes : ∀ i, t.secret.read i = s.secret.read i
  slen : t.slen = s.slen
  ovf : t.ovf = s.ovf

/-- Group K is as it was. -/
structure State.SameK (s t : State) : Prop where
  bytes : ∀ i, t.key.read i = s.key.read i
  klen : t.klen = s.klen
  kv : t.kv = s.kv

/-- Group M is as it was. -/
structure State.SameM (s t : State) : Prop where
  counter : t.counter = s.counter
  bytes : ∀ i, t.msg.read i = s.msg.read i
  trem : t.trem = s.trem
  mv : t.mv = s.mv

/-- Group D is as it was. -/
structure State.SameD (s t : State) : Prop where
  bytes : ∀ i, t.digest.read i = s.digest.read i
  dlen : t.dlen = s.dlen
  dv : t.dv = s.dv

/-- Group V is as it was. -/
structure State.SameV (s t : State) : Prop where
  offset : t.offset = s.offset
  value : t.value = s.value
  vv : t.vv = s.vv

/-- Group C is as it was. -/
structure State.SameC (s t : State) : Prop where
  code : t.code = s.code
  bytes : ∀ i, t.codestr.read i = s.codestr.read i
  cv : t.cv = s.cv

/-- The error record is as it was. -/
structure State.SameErrors (s t : State) : Prop where
  lasterr : t.lasterr = s.lasterr
  ef : t.ef = s.ef

/-- Every register, flag and buffer byte but the error record is as it was; the two ends of the port are not
among them. -/
structure State.SameData (s t : State) : Prop where
  config : s.SameConfig t
  secret : s.SameSecret t
  groupK : s.SameK t
  groupM : s.SameM t
  groupD : s.SameD t
  groupV : s.SameV t
  groupC : s.SameC t

/-! ### What is cleared (R43, R44) -/

/-- Group K is clear. -/
structure State.ClearedK (t : State) : Prop where
  bytes : ∀ i, t.key.read i = 0
  klen : t.klen = 0
  kv : t.kv = false

/-- Group M is clear. -/
structure State.ClearedM (t : State) : Prop where
  counter : t.counter = 0
  bytes : ∀ i, t.msg.read i = 0
  trem : t.trem = 0
  mv : t.mv = false

/-- Group D is clear. -/
structure State.ClearedD (t : State) : Prop where
  bytes : ∀ i, t.digest.read i = 0
  dlen : t.dlen = 0
  dv : t.dv = false

/-- Group V is clear. -/
structure State.ClearedV (t : State) : Prop where
  offset : t.offset = 0
  value : t.value = 0
  vv : t.vv = false

/-- Group C is clear. -/
structure State.ClearedC (t : State) : Prop where
  code : t.code = 0
  bytes : ∀ i, t.codestr.read i = 0
  cv : t.cv = false

/-! ### What a command records -/

/-- A command that completes with `c` leaves this record and this response (R326, R68), and leaves what the host
has still to present alone. -/
structure State.Records (s : State) (c : BitVec 4) (t : State) : Prop where
  lasterr : t.lasterr = c
  ef : t.ef = (s.ef || c != 0)
  reply : t.reply = some (.cmd c)
  pending : t.pending = s.pending

/-- The bytes `bytes` stand in a buffer from index 0, and 0x00 stands after them. -/
def Memory.Holds (m : Memory) (bytes : List Byte) : Prop :=
  ∀ i, m.read i = bytes.getD i 0

/-! ### Invariants -/

/-- The bounds the spec gives on lengths (R26, R28, R30). -/
structure State.Bounded (s : State) : Prop where
  slen : s.slen.toNat ≤ Config.secretMax
  klen : s.klen.toNat ≤ Config.keyMax
  dlen : s.dlen.toNat ≤ Config.digestMax

/-- Every buffer is in canonical form and within its capacity (log 5). -/
def State.Canonical (s : State) : Prop :=
  ∀ b : BufName, (s.buffer b).wf = true ∧ (s.buffer b).within b.capacity = true

/-- The invariants on the flags, R42. -/
structure State.FlagsConsistent (s : State) : Prop where
  digest : s.dv = true → s.kv = true ∧ s.mv = true
  value : s.vv = true → s.dv = true
  code : s.cv = true → s.vv = true
  key : s.kv = true → s.ovf = false
  digits : s.cv = true → s.digits = 6 ∨ s.digits = 8
  period : s.mv = true → 0 < s.period.toInt

/-- The invariants on the contents, R43, and the last clause of R32: a valid code string is 0x00 from `DIGITS`
on. -/
structure State.ZeroBeyond (s : State) : Prop where
  secret : ∀ i, s.slen.toNat ≤ i → i < Config.secretMax → s.secret.read i = 0
  key : ∀ i, s.klen.toNat ≤ i → i < Config.keyMax → s.key.read i = 0
  klen : s.kv = false → s.klen = 0
  groupM : s.mv = false → s.counter = 0 ∧ (∀ i, i < Config.msgLen → s.msg.read i = 0) ∧ s.trem = 0
  digest : ∀ i, s.dlen.toNat ≤ i → i < Config.digestMax → s.digest.read i = 0
  dlen : s.dv = false → s.dlen = 0
  groupV : s.vv = false → s.offset = 0 ∧ s.value = 0
  groupC : s.cv = false → s.code = 0 ∧ ∀ i, i < Config.codeMax → s.codestr.read i = 0
  codestr : s.cv = true → ∀ i, s.digits.toNat ≤ i → i < Config.codeMax → s.codestr.read i = 0

/-- What a valid flag means (R41): the group holds the result of its computation on the inputs as they now
stand (R28 to R32). -/
structure State.ResultsCurrent (s : State) : Prop where
  groupK : s.kv = true → ∃ fold, b32decode s.secretText fold = some s.keyBytes
  groupM : s.mv = true →
    s.counter.toNat = s.time.toNat / s.period.toInt.toNat ∧
    s.msgBytes = beBytes 8 s.counter.toNat ∧
    s.trem.toNat = s.period.toInt.toNat - s.time.toNat % s.period.toInt.toNat
  groupD : s.dv = true → s.digestBytes = hmac (algorithmOf s.alg) s.keyBytes s.msgBytes
  groupV : s.vv = true → truncate s.digestBytes = some (s.offset, s.value)
  groupC : s.cv = true →
    s.code.toNat = s.value.toNat % 10 ^ s.digits.toNat ∧
    s.codeText = digitChars s.digits.toNat s.code.toNat

/-- The invariant of a safe run. -/
structure State.Inv (s : State) : Prop where
  bounded : s.Bounded
  canonical : s.Canonical
  flags : s.FlagsConsistent
  zeros : s.ZeroBeyond
  results : s.ResultsCurrent

/-! ### `GEN` -/

/-- A character is one of the six whitespace codes of R303. The codes are written out here, so that a claim which
uses this says which they are. -/
abbrev WhitespaceCode (c : Byte) : Prop :=
  c = 0x09 ∨ c = 0x0A ∨ c = 0x0B ∨ c = 0x0C ∨ c = 0x0D ∨ c = 0x20

/-- The first error of `GEN` in the order of R305, or none where it succeeds, as a function of the text, `OVF`,
`ALG`, `DIGITS`, `PERIOD` and `TIME`. -/
def genError (text : List Byte) (ovf : Bool) (alg : BitVec 2) (digits : BitVec 8) (period : Word32)
    (time : Word64) : Option ErrorKind :=
  if ovf then some .secretOverflow
  else if ∀ c ∈ text, WhitespaceCode c then some .emptySecret
  else if ¬ (digits = 6 ∨ digits = 8) then some .invalidDigits
  else if period.toInt ≤ 0 then some .invalidPeriod
  else
    match b32decode text true with
    | none => some .invalidSecretEncoding
    | some key =>
      let digest := hmac (algorithmOf alg) key (beBytes 8 (time.toNat / period.toInt.toNat))
      if (digest.getD (digest.length - 1) 0).toNat % 16 + 4 > digest.length then some .truncationRange
      else none

/-- `generate(s, alg, digits, period, t)` (R311). -/
def generate (text : List Byte) (alg : BitVec 2) (digits : BitVec 8) (period : Word32)
    (time : Word64) : Except ErrorKind (List Byte) :=
  if text.length = 0 ∨ ∀ c ∈ text, WhitespaceCode c then .error .emptySecret
  else if ¬ (digits = 6 ∨ digits = 8) then .error .invalidDigits
  else if period.toInt ≤ 0 then .error .invalidPeriod
  else
    match b32decode text true with
    | none => .error .invalidSecretEncoding
    | some key =>
      let digest := hmac (algorithmOf alg) key (beBytes 8 (time.toNat / period.toInt.toNat))
      let off := (digest.getD ((algorithmOf alg).digestLength - 1) 0).toNat % 16
      if off + 4 > (algorithmOf alg).digestLength then .error .truncationRange
      else
        .ok (digitChars digits.toNat
          (fromBe ((digest.drop off).take 4) % 2 ^ 31 % 10 ^ digits.toNat))

/-- Commands one after the other, stopping at a stop. -/
def execAll (cmds : List Instr) (s : State) : Host.Outcome State Fault Refusal :=
  match cmds with
  | [] => .next s
  | i :: rest =>
    match exec i s with
    | .next t => execAll rest t
    | .fault f => .fault f
    | .refused r => .refused r

/-! ### Base32 -/

/-- Bit `t` of the text's values, 5 bits a character, most significant first: `bit(t)` of R159. -/
def valueBit (values : List Nat) (t : Nat) : Bool :=
  (values.getD (t / 5) 0).testBit (4 - t % 5)

/-- The alphabet character with a value, R104. -/
def alphabetChar (v : Nat) : Byte :=
  if v < 26 then BitVec.ofNat 8 (0x41 + v) else BitVec.ofNat 8 (0x32 + (v - 26))

/-- The RFC 4648 encoder of R167, without padding: each 5-bit group of the bytes, most significant first and
zero-filled at the end, to the character with that value; `nbits` bits of `acc` are not yet written. The block
has no encoder; only a claim uses this one. -/
def b32encode (acc nbits : Nat) (bytes : List Byte) : List Byte :=
  match bytes with
  | [] => if nbits = 0 then [] else [alphabetChar ((acc <<< (5 - nbits)) % 32)]
  | b :: rest =>
    let acc := acc * 256 + b.toNat
    let nbits := nbits + 8
    if nbits < 10 then
      alphabetChar (acc >>> (nbits - 5) % 32)
        :: b32encode (acc % 2 ^ (nbits - 5)) (nbits - 5) rest
    else
      alphabetChar (acc >>> (nbits - 5) % 32)
        :: alphabetChar (acc >>> (nbits - 10) % 32)
        :: b32encode (acc % 2 ^ (nbits - 10)) (nbits - 10) rest

end Sys2Proof.Machine
end

