-- ==== Sys2Proof/Certificates/Slice0/Obligations.lean ====
section
/-! DEFINITION. The statements for the provers, in the order of OBLIGATIONS.json. -/

open Sys2Proof Sys2Proof.Machine

/-! ## Encoding -/

/-- R97, R116: some words written out: `LOAD "JB"`, a command of each unit, and a reserved opcode. -/
def Obligations.CommandWordsDecode : Prop :=
  decode 0x1000 = .ok .clr ∧ decode 0x204A = .ok (.push 0x4A) ∧ decode 0x2042 = .ok (.push 0x42) ∧
  decode 0x4000 = .ok .decu ∧ decode 0x5000 = .ok .ctr ∧ decode 0x6000 = .ok .mac ∧
  decode 0x7000 = .ok .trunc ∧ decode 0x8000 = .ok .mod ∧ decode 0x9000 = .ok .gen ∧
  decode 0xB000 = .error .reservedOpcode

/-- R98, R97: the eleven commands' words, `PUSH` with every operand, and which words are illegal: every other. -/
def Obligations.DecodesOpcodeMap : Prop :=
  decode 0x0000 = .ok .nop ∧ decode 0x1000 = .ok .clr ∧
  (∀ imm8 : Byte, decode (0x2000 + imm8.setWidth 16) = .ok (.push imm8)) ∧
  decode 0x3000 = .ok .dec ∧ decode 0x4000 = .ok .decu ∧ decode 0x5000 = .ok .ctr ∧
  decode 0x6000 = .ok .mac ∧ decode 0x7000 = .ok .trunc ∧ decode 0x8000 = .ok .mod ∧
  decode 0x9000 = .ok .gen ∧ decode 0xA000 = .ok .clrerr ∧
  ∀ w : Word16, (∃ e, decode w = .error e) ↔
    (0xB ≤ w.toNat / 4096 ∨ w.toNat / 256 % 16 ≠ 0 ∨ (w.toNat % 256 ≠ 0 ∧ w.toNat / 4096 ≠ 2))

/-- R98: a word decodes to a command exactly where it is that command's word, so decoding inverts encoding and no
two commands share a word. -/
def Obligations.DecodeInvertsEncode : Prop :=
  ∀ (w : Word16) (i : Instr), decode w = .ok i ↔ w = encode i

/-! ## Steps and the host port -/

/-- R68: a step that takes a legal command word runs that command, on the state from which the transaction has
been taken. The word `withFetchWord` presents is the next one run, on the state as it stood (the model's own reading
of a fetch, log 3 and log 4: this block has no fetch). -/
def Obligations.StepRunsDecodedCommand : Prop :=
  (∀ (s : State) (w : Word16) (rest : List Transaction) (i : Instr),
    s.pending = .cmd w :: rest → decode w = .ok i → step s = exec i { s with pending := rest }) ∧
  (∀ (s : State) (nbits w : Nat) (i : Instr), decodeTableWord nbits w = some i →
    step (s.withFetchWord nbits w) = exec i s)

/-- R100: a word with a reserved opcode, a non-zero `zero` field, or a non-zero immediate with an opcode other than
`PUSH` changes nothing but the error record, and is answered with code 8. -/
def Obligations.IllegalWordRecordsIllegalCommand : Prop :=
  ∀ (s : State) (w : Word16) (rest : List Transaction), s.pending = .cmd w :: rest →
    (0xB ≤ w.toNat / 4096 ∨ w.toNat / 256 % 16 ≠ 0 ∨
      (w.toNat % 256 ≠ 0 ∧ w.toNat / 4096 ≠ 2)) →
    ∃ t, step s = .next t ∧ s.SameData t ∧ t.lasterr = 8 ∧ t.ef = true ∧
      t.reply = some (.cmd 8) ∧ t.pending = rest

/-- R330, R70: every step answers a next state, and serves the pending transactions one at a time in their order.
(That an idle step changes nothing is the model's choice, log 1.) -/
def Obligations.EveryStepAnswersNext : Prop :=
  (∀ s : State, s.pending = [] → step s = .next s) ∧
  (∀ s : State, ∃ t, step s = .next t ∧ t.pending = s.pending.tail) ∧
  (∀ (i : Instr) (s : State), ∃ t, exec i s = .next t ∧ t.pending = s.pending)

/-- R69, R353: `Reset` is accepted in every state and leaves the reset state. Two clauses are the model's choice:
that the host's pending list stays (log 1), and that `reply` is none afterwards (log 2; R69 says only that there is
no response). -/
def Obligations.ResetGivesResetState : Prop :=
  ∀ (s : State) (rest : List Transaction), s.pending = .reset :: rest →
    step s = .next { State.reset with pending := rest }

/-- R49: the reset values. -/
def Obligations.ResetValues : Prop :=
  State.reset.alg = 0 ∧ State.reset.digits = 6 ∧ State.reset.period = 30 ∧ State.reset.time = 0 ∧
  (∀ b i, (State.reset.buffer b).read i = 0) ∧
  State.reset.slen = 0 ∧ State.reset.ovf = false ∧ State.reset.klen = 0 ∧ State.reset.kv = false ∧
  State.reset.counter = 0 ∧ State.reset.trem = 0 ∧ State.reset.mv = false ∧
  State.reset.dlen = 0 ∧ State.reset.dv = false ∧
  State.reset.offset = 0 ∧ State.reset.value = 0 ∧ State.reset.vv = false ∧
  State.reset.code = 0 ∧ State.reset.cv = false ∧
  State.reset.lasterr = 0 ∧ State.reset.ef = false ∧ State.reset.status = 0

/-- R33: the bits of `STATUS`. -/
def Obligations.StatusBits : Prop :=
  ∀ s : State,
    s.status.getLsbD 0 = s.kv ∧ s.status.getLsbD 1 = s.mv ∧ s.status.getLsbD 2 = s.dv ∧
    s.status.getLsbD 3 = s.vv ∧ s.status.getLsbD 4 = s.cv ∧ s.status.getLsbD 5 = s.ovf ∧
    s.status.getLsbD 6 = s.ef ∧ s.status.getLsbD 7 = false ∧
    s.status.extractLsb' 8 4 = s.lasterr ∧ s.status.extractLsb' 12 4 = 0

/-- R63, R64, R93: what a register read answers, for each index; nothing else changes. -/
def Obligations.RegReadAnswersRegister : Prop :=
  ∀ (s : State) (idx : BitVec 8) (rest : List Transaction), s.pending = .regRead idx :: rest →
    ∃ ok data, step s = .next { s with pending := rest, reply := some (.regRead ok data) } ∧
      (idx.toNat ≤ 0x0C → ok = true) ∧
      (idx = 0x00 → data.toNat = s.status.toNat) ∧ (idx = 0x01 → data.toNat = s.alg.toNat) ∧
      (idx = 0x02 → data.toNat = s.digits.toNat) ∧ (idx = 0x03 → data.toNat = s.period.toNat) ∧
      (idx = 0x04 → data = s.time) ∧ (idx = 0x05 → data.toNat = s.slen.toNat) ∧
      (idx = 0x06 → data.toNat = s.klen.toNat) ∧ (idx = 0x07 → data = s.counter) ∧
      (idx = 0x08 → data.toNat = s.trem.toNat) ∧ (idx = 0x09 → data.toNat = s.dlen.toNat) ∧
      (idx = 0x0A → data.toNat = s.offset.toNat) ∧ (idx = 0x0B → data.toNat = s.value.toNat) ∧
      (idx = 0x0C → data.toNat = s.code.toNat) ∧
      (0x0D ≤ idx.toNat → ok = false ∧ data = 0)

/-- R65, R45: an accepted write of `ALG`, `DIGITS`, `PERIOD` or `TIME` stores the data, clears the groups computed
from the register, and leaves every other register, the secret and the error record alone. -/
def Obligations.AcceptedWriteStoresAndClears : Prop :=
  ∀ (s : State) (idx : BitVec 8) (data : Word64) (rest : List Transaction),
    s.pending = .regWrite idx data :: rest →
    (idx = 0x01 → data.toNat < 2 ^ 2 → ∃ t, step s = .next t ∧
      t.alg.toNat = data.toNat ∧ t.digits = s.digits ∧ t.period = s.period ∧ t.time = s.time ∧
      s.SameSecret t ∧ s.SameK t ∧ s.SameM t ∧ t.ClearedD ∧ t.ClearedV ∧ t.ClearedC ∧
      s.SameErrors t ∧ t.reply = some (.regWrite true) ∧ t.pending = rest) ∧
    (idx = 0x02 → data.toNat < 2 ^ 8 → ∃ t, step s = .next t ∧
      t.digits.toNat = data.toNat ∧ t.alg = s.alg ∧ t.period = s.period ∧ t.time = s.time ∧
      s.SameSecret t ∧ s.SameK t ∧ s.SameM t ∧ s.SameD t ∧ s.SameV t ∧ t.ClearedC ∧
      s.SameErrors t ∧ t.reply = some (.regWrite true) ∧ t.pending = rest) ∧
    (idx = 0x03 → data.toNat < 2 ^ 32 → ∃ t, step s = .next t ∧
      t.period.toNat = data.toNat ∧ t.alg = s.alg ∧ t.digits = s.digits ∧ t.time = s.time ∧
      s.SameSecret t ∧ s.SameK t ∧ t.ClearedM ∧ t.ClearedD ∧ t.ClearedV ∧ t.ClearedC ∧
      s.SameErrors t ∧ t.reply = some (.regWrite true) ∧ t.pending = rest) ∧
    (idx = 0x04 → ∃ t, step s = .next t ∧
      t.time = data ∧ t.alg = s.alg ∧ t.digits = s.digits ∧ t.period = s.period ∧
      s.SameSecret t ∧ s.SameK t ∧ t.ClearedM ∧ t.ClearedD ∧ t.ClearedV ∧ t.ClearedC ∧
      s.SameErrors t ∧ t.reply = some (.regWrite true) ∧ t.pending = rest)

/-- R66: a write to an unmapped index, to a read-only register, or of data wider than the register is refused,
and changes nothing. -/
def Obligations.RefusedWriteChangesNothing : Prop :=
  ∀ (s : State) (idx : BitVec 8) (data : Word64) (rest : List Transaction),
    s.pending = .regWrite idx data :: rest →
    (0x0D ≤ idx.toNat ∨ idx = 0x00 ∨ (0x05 ≤ idx.toNat ∧ idx.toNat ≤ 0x0C) ∨
      (idx = 0x01 ∧ 2 ^ 2 ≤ data.toNat) ∨ (idx = 0x02 ∧ 2 ^ 8 ≤ data.toNat) ∨
      (idx = 0x03 ∧ 2 ^ 32 ≤ data.toNat)) →
    step s = .next { s with pending := rest, reply := some (.regWrite false) }

/-- R67: what a buffer read answers: the byte below the buffer's capacity, else a refusal; nothing else changes.
Between the length and the capacity the byte is 0x00 (by the invariants of R43 and R32); the length of `CODESTR` is
`DIGITS`, and a `MSG` or `CODESTR` of a group that is not valid is 0x00 throughout. -/
def Obligations.BufReadAnswersByte : Prop :=
  ∀ (s : State) (buf : BitVec 3) (i : Word16) (rest : List Transaction),
    s.pending = .bufRead buf i :: rest →
    ∃ ok byte, step s = .next { s with pending := rest, reply := some (.bufRead ok byte) } ∧
      (buf = 0 → i.toNat < 256 → ok = true ∧ byte = s.secret.read i.toNat) ∧
      (buf = 1 → i.toNat < 160 → ok = true ∧ byte = s.key.read i.toNat) ∧
      (buf = 2 → i.toNat < 8 → ok = true ∧ byte = s.msg.read i.toNat) ∧
      (buf = 3 → i.toNat < 64 → ok = true ∧ byte = s.digest.read i.toNat) ∧
      (buf = 4 → i.toNat < 8 → ok = true ∧ byte = s.codestr.read i.toNat) ∧
      ((buf = 0 ∧ 256 ≤ i.toNat) ∨ (buf = 1 ∧ 160 ≤ i.toNat) ∨ (buf = 2 ∧ 8 ≤ i.toNat) ∨
        (buf = 3 ∧ 64 ≤ i.toNat) ∨ (buf = 4 ∧ 8 ≤ i.toNat) ∨ 5 ≤ buf.toNat →
        ok = false ∧ byte = 0) ∧
      (s.ZeroBeyond →
        (buf = 0 ∧ s.slen.toNat ≤ i.toNat) ∨ (buf = 1 ∧ s.klen.toNat ≤ i.toNat) ∨
          (buf = 3 ∧ s.dlen.toNat ≤ i.toNat) ∨ (buf = 4 ∧ s.digits.toNat ≤ i.toNat) ∨
          (buf = 2 ∧ s.mv = false) ∨ (buf = 4 ∧ s.cv = false) → byte = 0)

/-- R65, R63: what an accepted write stores is what the next read of that register answers. -/
def Obligations.WrittenRegisterReadsBack : Prop :=
  ∀ (s : State) (idx : BitVec 8) (data : Word64) (rest : List Transaction),
    s.pending = .regWrite idx data :: .regRead idx :: rest →
    (idx = 0x01 ∧ data.toNat < 2 ^ 2) ∨ (idx = 0x02 ∧ data.toNat < 2 ^ 8) ∨
      (idx = 0x03 ∧ data.toNat < 2 ^ 32) ∨ idx = 0x04 →
    ∃ t, core.run 2 s = .next t ∧ t.reply = some (.regRead true data) ∧ t.pending = rest

/-! ## Loading and the error record -/

/-- R131: `NOP`, word 0x0000. -/
def Obligations.NopOnlyCompletes : Prop :=
  decode 0x0000 = .ok .nop ∧
  ∀ s : State, ∃ t, exec .nop s = .next t ∧ s.SameData t ∧ s.Records 0 t

/-- R132: `CLR`, word 0x1000. -/
def Obligations.ClrEmptiesSecret : Prop :=
  decode 0x1000 = .ok .clr ∧
  ∀ s : State, ∃ t, exec .clr s = .next t ∧
    t.slen = 0 ∧ t.ovf = false ∧ (∀ i, t.secret.read i = 0) ∧
    t.ClearedK ∧ t.ClearedD ∧ t.ClearedV ∧ t.ClearedC ∧
    s.SameConfig t ∧ s.SameM t ∧ s.Records 0 t

/-- R133: `PUSH imm8`, word 0x2000 + imm8, appends any character where there is room, and on a full buffer drops it
and sets `OVF`. -/
def Obligations.PushAppendsOrOverflows : Prop :=
  ∀ (imm8 : Byte) (s : State), s.secret.wf = true → s.slen.toNat ≤ 256 →
    decode (0x2000 + imm8.setWidth 16) = .ok (.push imm8) ∧
    ∃ t, exec (.push imm8) s = .next t ∧
      t.ClearedK ∧ t.ClearedD ∧ t.ClearedV ∧ t.ClearedC ∧ s.SameConfig t ∧ s.SameM t ∧
      (s.slen.toNat < 256 →
        t.slen.toNat = s.slen.toNat + 1 ∧ t.ovf = s.ovf ∧
        t.secret.read s.slen.toNat = imm8 ∧
        (∀ i, i ≠ s.slen.toNat → t.secret.read i = s.secret.read i) ∧ s.Records 0 t) ∧
      (s.slen.toNat = 256 →
        t.slen = s.slen ∧ t.ovf = true ∧ (∀ i, t.secret.read i = s.secret.read i) ∧
        s.Records 10 t)

/-- R134: `CLRERR`, word 0xA000. -/
def Obligations.ClrerrClearsErrorRecord : Prop :=
  decode 0xA000 = .ok .clrerr ∧
  ∀ s : State, ∃ t, exec .clrerr s = .next t ∧ s.SameData t ∧
    t.ef = false ∧ t.lasterr = 0 ∧ t.reply = some (.cmd 0) ∧ t.pending = s.pending

/-- R135: loading a text that fits. -/
def Obligations.LoadFillsSecret : Prop :=
  ∀ (s : State) (text : List Byte) (rest : List Transaction), text.length ≤ 256 →
    s.pending = .cmd 0x1000 :: text.map (fun c => .cmd (0x2000 + c.setWidth 16)) ++ rest →
    ∃ t, core.run (text.length + 1) s = .next t ∧
      t.slen.toNat = text.length ∧ (∀ i, t.secret.read i = text.getD i 0) ∧ t.ovf = false ∧
      t.ClearedK ∧ t.ClearedD ∧ t.ClearedV ∧ t.ClearedC ∧ s.SameConfig t ∧ s.SameM t ∧
      t.pending = rest

/-- R27, R360: once set, `OVF` stays until `CLR`, and until then no decode succeeds. -/
def Obligations.OverflowLastsUntilClr : Prop :=
  ∀ (i : Instr) (s t : State), s.ovf = true → exec i s = .next t →
    (i = .clr ∨ t.ovf = true) ∧ (i = .dec ∨ i = .decu ∨ i = .gen → t.lasterr = 10)

/-! ## The Base32 decoder -/

/-- R160, R161: `DEC` and `DECU` on a text that decodes. -/
def Obligations.DecodeCommandsWriteKey : Prop :=
  ∀ (s : State) (fold : Bool) (key : List Byte),
    s.ovf = false → s.slen.toNat ≤ 256 → b32decode s.secretText fold = some key →
    ∃ t, exec (if fold then .decu else .dec) s = .next t ∧
      t.kv = true ∧ t.klen.toNat = key.length ∧ t.key.Holds key ∧
      t.ClearedD ∧ t.ClearedV ∧ t.ClearedC ∧
      s.SameConfig t ∧ s.SameSecret t ∧ s.SameM t ∧ s.Records 0 t

/-- R160 to R162: `DEC` and `DECU` fail with no output, the overflow tested first. -/
def Obligations.DecodeFailureLeavesNoKey : Prop :=
  ∀ (s : State) (fold : Bool), (s.ovf = true ∨ b32decode s.secretText fold = none) →
    ∃ t, exec (if fold then .decu else .dec) s = .next t ∧
      t.ClearedK ∧ t.ClearedD ∧ t.ClearedV ∧ t.ClearedC ∧
      s.SameConfig t ∧ s.SameSecret t ∧ s.SameM t ∧
      s.Records (if s.ovf then 10 else 1) t

/-- R104, R105: the values of the 32 alphabet characters, and no other character has one. -/
def Obligations.AlphabetValues : Prop :=
  (∀ v, v < 26 → b32val (BitVec.ofNat 8 (0x41 + v)) = some v) ∧
  (∀ v, 26 ≤ v → v < 32 → b32val (BitVec.ofNat 8 (0x32 + (v - 26))) = some v) ∧
  (∀ c : Byte, (c.toNat < 0x41 ∨ 0x5A < c.toNat) → (c.toNat < 0x32 ∨ 0x37 < c.toNat) →
    b32val c = none)

/-- R157: the output length. -/
def Obligations.DecoderOutputLength : Prop :=
  ∀ (chars : List Byte) (fold : Bool) (key : List Byte), b32decode chars fold = some key →
    key.length = (chars.filter (· != 0x3D)).length * 5 / 8

/-- R153: `=` is skipped wherever it stands. -/
def Obligations.PaddingIsSkippedAnywhere : Prop :=
  ∀ (chars : List Byte) (fold : Bool),
    b32decode chars fold = b32decode (chars.filter (· != 0x3D)) fold

/-- R154: the decode fails exactly where some character, folded if the command folds, is neither `=` nor in the
alphabet. -/
def Obligations.DecodeFailsOnBadCharacter : Prop :=
  ∀ (chars : List Byte) (fold : Bool), b32decode chars fold = none ↔
    ∃ c ∈ chars, (if fold then upcase c else c) ≠ 0x3D ∧
      b32val (if fold then upcase c else c) = none

/-- R152, R161: folding replaces each code 0x61 to 0x7A by the code 0x20 below it, and no other code: a text decodes
with folding as the text so replaced does without, and on a text without such codes folding changes nothing. -/
def Obligations.FoldingTouchesOnlyLowerCase : Prop :=
  (∀ chars : List Byte, b32decode chars true =
    b32decode (chars.map fun c => if 0x61 ≤ c.toNat ∧ c.toNat ≤ 0x7A then c - 0x20 else c) false) ∧
  (∀ chars : List Byte, (∀ c ∈ chars, ¬ (0x61 ≤ c.toNat ∧ c.toNat ≤ 0x7A)) →
    b32decode chars true = b32decode chars false)

/-- R159: the closed form, with folding and without. -/
def Obligations.DecoderClosedForm : Prop :=
  ∀ (chars : List Byte) (fold : Bool) (key : List Byte), b32decode chars fold = some key →
    ∀ j b, j < key.length → b ≤ 7 →
      (key.getD j 0).getLsbD (7 - b) =
        valueBit ((((if fold then chars.map upcase else chars).filter (· != 0x3D)).map
          fun c => (b32val c).getD 0)) (8 * j + b)

/-- R167: decoding inverts the RFC 4648 encoder, with or without padding after it. -/
def Obligations.DecodeInvertsRfcEncoder : Prop :=
  ∀ (bytes : List Byte) (pads : Nat),
    b32decode (b32encode 0 0 bytes ++ List.replicate pads 0x3D) false = some bytes

/-! ## The time counter -/

/-- R182 to R186: `CTR` with a positive period. -/
def Obligations.CtrWritesTimeStep : Prop :=
  ∀ (s : State) (p : Nat), s.period.toInt = (p : Int) → 0 < p →
    ∃ t, exec .ctr s = .next t ∧ t.mv = true ∧
      t.counter.toNat = s.time.toNat / p ∧
      (∀ i, i < 8 → (t.msg.read i).toNat = s.time.toNat / p / 2 ^ (8 * (7 - i)) % 256) ∧
      (∀ i, 8 ≤ i → t.msg.read i = 0) ∧
      t.trem.toNat = p - s.time.toNat % p ∧
      t.ClearedD ∧ t.ClearedV ∧ t.ClearedC ∧
      s.SameConfig t ∧ s.SameSecret t ∧ s.SameK t ∧ s.Records 0 t

/-- R183: `CTR` with a zero or negative period. -/
def Obligations.CtrRejectsPeriod : Prop :=
  ∀ s : State, (s.period = 0 ∨ 2 ^ 31 ≤ s.period.toNat) →
    ∃ t, exec .ctr s = .next t ∧ t.ClearedM ∧ t.ClearedD ∧ t.ClearedV ∧ t.ClearedC ∧
      s.SameConfig t ∧ s.SameSecret t ∧ s.SameK t ∧ s.Records 4 t

/-- R186: the seconds remaining, their range, and when they are the whole period. -/
def Obligations.SecondsRemainingRange : Prop :=
  ∀ (s t : State), exec .ctr s = .next t → t.mv = true →
    (t.trem.toNat : Int) = s.period.toInt - (s.time.toNat : Int) % s.period.toInt ∧
    1 ≤ t.trem.toNat ∧ (t.trem.toNat : Int) ≤ s.period.toInt ∧
    ((t.trem.toNat : Int) = s.period.toInt ↔ (s.time.toNat : Int) % s.period.toInt = 0) ∧
    (t.counter.toNat : Int) * s.period.toInt + (s.period.toInt - t.trem.toNat)
      = s.time.toNat

/-! ## HMAC and the hash functions -/

/-- R201, R203: `MAC` with a valid key and message. -/
def Obligations.MacWritesDigest : Prop :=
  ∀ s : State, s.kv = true → s.mv = true →
    ∃ t, exec .mac s = .next t ∧ t.dv = true ∧
      t.digest.Holds (hmac (algorithmOf s.alg) s.keyBytes s.msgBytes) ∧
      (s.alg = 0 → t.dlen = 20) ∧ (s.alg = 1 → t.dlen = 32) ∧ (s.alg = 2 → t.dlen = 64) ∧
      (s.alg = 3 → t.dlen = 16) ∧
      t.ClearedV ∧ t.ClearedC ∧
      s.SameConfig t ∧ s.SameSecret t ∧ s.SameK t ∧ s.SameM t ∧ s.Records 0 t

/-- R202: `MAC` without a valid key or message computes nothing. -/
def Obligations.MacNeedsKeyAndMessage : Prop :=
  ∀ s : State, (s.kv = false ∨ s.mv = false) →
    ∃ t, exec .mac s = .next t ∧ t.ClearedD ∧ t.ClearedV ∧ t.ClearedC ∧
      s.SameConfig t ∧ s.SameSecret t ∧ s.SameK t ∧ s.SameM t ∧ s.Records 9 t

/-- R203: the digest lengths, for every key and message. -/
def Obligations.HmacDigestLength : Prop :=
  ∀ key msg : List Byte,
    (hmac .sha1 key msg).length = 20 ∧ (hmac .sha256 key msg).length = 32 ∧
    (hmac .sha512 key msg).length = 64 ∧ (hmac .md5 key msg).length = 16

/-- R204, R205, with the hash function `H` and the block size `B` of R203 for each `ALG` code: the construction
`H(opad || H(ipad || msg))` for a key of at most one block, a longer key acting as its hash, and a zero byte after
a key that leaves room in the block changing nothing. -/
def Obligations.HmacKeyForms : Prop :=
  ∀ (alg : BitVec 2) (H : List Byte → List Byte) (B : Nat) (key msg : List Byte),
    ((alg = 0 ∧ H = sha1 ∧ B = 64) ∨ (alg = 1 ∧ H = sha256 ∧ B = 64) ∨
      (alg = 2 ∧ H = sha512 ∧ B = 128) ∨ (alg = 3 ∧ H = md5 ∧ B = 64)) →
    (key.length ≤ B → hmac (algorithmOf alg) key msg =
      H ((key ++ List.replicate (B - key.length) 0x00).map (· ^^^ 0x5C) ++
        H ((key ++ List.replicate (B - key.length) 0x00).map (· ^^^ 0x36) ++ msg))) ∧
    (B < key.length → hmac (algorithmOf alg) key msg = hmac (algorithmOf alg) (H key) msg) ∧
    (key.length < B → hmac (algorithmOf alg) (key ++ [0x00]) msg = hmac (algorithmOf alg) key msg)

/-- R221: a padded message is whole blocks, and how many. -/
def Obligations.PaddingMakesWholeBlocks : Prop :=
  ∀ m : List Byte,
    (padMessage m 64 8 beBytes).length = (m.length + 9 + 63) / 64 * 64 ∧
    (padMessage m 64 8 leBytes).length = (m.length + 9 + 63) / 64 * 64 ∧
    (padMessage m 128 16 beBytes).length = (m.length + 17 + 127) / 128 * 128

/-- R232, R244, R254, R266: the known answers. -/
def Obligations.HashKnownAnswers : Prop :=
  fromBe (sha1 []) = 0xda39a3ee5e6b4b0d3255bfef95601890afd80709 ∧
  fromBe (sha1 [0x61, 0x62, 0x63]) = 0xa9993e364706816aba3e25717850c26c9cd0d89d ∧
  fromBe (sha256 []) = 0xe3b0c44298fc1c149afbf4c8996fb92427ae41e4649b934ca495991b7852b855 ∧
  fromBe (sha256 [0x61, 0x62, 0x63]) =
    0xba7816bf8f01cfea414140de5dae2223b00361a396177a9cb410ff61f20015ad ∧
  fromBe (sha512 []) =
    0xcf83e1357eefb8bdf1542850d66d8007d620e4050b5715dc83f4a921d36ce9ce47d0d13c5d85f2b0ff8318d2877eec2f63b931bd47417a81a538327af927da3e ∧
  fromBe (sha512 [0x61, 0x62, 0x63]) =
    0xddaf35a193617abacc417349ae20413112e6fa4e89a97ea20a9eeee64b55d39a2192992a274fc1a836ba3c23a3feebbd454d4423643ce80e2a9ac94fa54ca49f ∧
  fromBe (md5 []) = 0xd41d8cd98f00b204e9800998ecf8427e ∧
  fromBe (md5 [0x61, 0x62, 0x63]) = 0x900150983cd24fb0d6963f7d28e17f72

/-! ## The digit extractor -/

/-- R281 to R283: `TRUNC` where the window fits. -/
def Obligations.TruncWritesWindow : Prop :=
  ∀ (s : State) (off : Nat), s.dv = true →
    off = (s.digest.read (s.dlen.toNat - 1)).toNat % 16 → off + 4 ≤ s.dlen.toNat →
    ∃ t, exec .trunc s = .next t ∧ t.vv = true ∧ t.offset.toNat = off ∧
      t.value.toNat = (s.digest.read off).toNat % 128 * 2 ^ 24 +
        (s.digest.read (off + 1)).toNat * 2 ^ 16 + (s.digest.read (off + 2)).toNat * 2 ^ 8 +
        (s.digest.read (off + 3)).toNat ∧
      t.ClearedC ∧
      s.SameConfig t ∧ s.SameSecret t ∧ s.SameK t ∧ s.SameM t ∧ s.SameD t ∧ s.Records 0 t

/-- R281, R285: `TRUNC` without a digest, and where the window does not fit. -/
def Obligations.TruncFailures : Prop :=
  ∀ s : State,
    (s.dv = false ∨
      s.dlen.toNat < (s.digest.read (s.dlen.toNat - 1)).toNat % 16 + 4) →
    ∃ t, exec .trunc s = .next t ∧ t.ClearedV ∧ t.ClearedC ∧
      s.SameConfig t ∧ s.SameSecret t ∧ s.SameK t ∧ s.SameM t ∧ s.SameD t ∧
      s.Records (if s.dv then 11 else 9) t

/-- R284: bit 31 of the value that `TRUNC` or `GEN` leaves is 0. -/
def Obligations.TruncatedValueRange : Prop :=
  ∀ (i : Instr) (s t : State), (i = .trunc ∨ i = .gen) → exec i s = .next t →
    t.value.getLsbD 31 = false ∧ t.value.toNat ≤ 0x7FFFFFFF

/-- R289 to R292: `MOD` with a valid value and a legal digit count. -/
def Obligations.ModWritesDigits : Prop :=
  ∀ (s : State) (n : Nat), s.vv = true → s.digits.toNat = n → (n = 6 ∨ n = 8) →
    ∃ t, exec .mod s = .next t ∧ t.cv = true ∧
      t.code.toNat = s.value.toNat % 10 ^ n ∧
      (∀ i, i < n →
        (t.codestr.read i).toNat = 0x30 + s.value.toNat % 10 ^ n / 10 ^ (n - 1 - i) % 10) ∧
      (∀ i, n ≤ i → t.codestr.read i = 0) ∧
      s.SameConfig t ∧ s.SameSecret t ∧ s.SameK t ∧ s.SameM t ∧ s.SameD t ∧ s.SameV t ∧
      s.Records 0 t

/-- R289, R290, R293: `MOD` fails, `Sequence` before `InvalidDigits`. -/
def Obligations.ModFailures : Prop :=
  ∀ s : State, (s.vv = false ∨ (s.digits.toNat ≠ 6 ∧ s.digits.toNat ≠ 8)) →
    ∃ t, exec .mod s = .next t ∧ t.ClearedC ∧
      s.SameConfig t ∧ s.SameSecret t ∧ s.SameK t ∧ s.SameM t ∧ s.SameD t ∧ s.SameV t ∧
      s.Records (if s.vv then 3 else 9) t

/-- R293: the six-digit code is the last six digits of the eight-digit code of the same value. -/
def Obligations.SixDigitsEndEightDigits : Prop :=
  ∀ (s t6 t8 : State), s.vv = true →
    exec .mod { s with digits := 6 } = .next t6 → exec .mod { s with digits := 8 } = .next t8 →
    t6.code.toNat = t8.code.toNat % 1000000 ∧
    ∀ i, i < 6 → t6.codestr.read i = t8.codestr.read (i + 2)

/-! ## GEN -/

/-- R301: `GEN` where no error applies: all five groups hold their results. -/
def Obligations.GenWritesAllGroups : Prop :=
  ∀ (s : State) (p : Nat) (key digest : List Byte) (off value : Nat),
    s.ovf = false → s.slen.toNat ≤ 256 → (∃ c ∈ s.secretText, ¬ WhitespaceCode c) →
    (s.digits = 6 ∨ s.digits = 8) → s.period.toInt = (p : Int) → 0 < p →
    b32decode s.secretText true = some key →
    digest = hmac (algorithmOf s.alg) key (beBytes 8 (s.time.toNat / p)) →
    off = (digest.getD (digest.length - 1) 0).toNat % 16 → off + 4 ≤ digest.length →
    value = fromBe ((digest.drop off).take 4) % 2 ^ 31 →
    ∃ t, exec .gen s = .next t ∧ t.status &&& 0x1F = 0x1F ∧
      t.key.Holds key ∧ t.klen.toNat = key.length ∧
      t.counter.toNat = s.time.toNat / p ∧ t.msg.Holds (beBytes 8 (s.time.toNat / p)) ∧
      t.trem.toNat = p - s.time.toNat % p ∧
      t.digest.Holds digest ∧ t.dlen.toNat = digest.length ∧
      t.offset.toNat = off ∧ t.value.toNat = value ∧
      t.code.toNat = value % 10 ^ s.digits.toNat ∧
      t.codestr.Holds (digitChars s.digits.toNat (value % 10 ^ s.digits.toNat)) ∧
      s.SameConfig t ∧ s.SameSecret t ∧ s.Records 0 t

/-- R301, R305, R306: where an error applies, `GEN` reports the first in the order of R305, by its code of R321, and
leaves all five groups clear. `genError` has the six whitespace codes of R303 written out (`WhitespaceCode`). -/
def Obligations.GenFailureClearsAllGroups : Prop :=
  ∀ (s : State) (e : ErrorKind),
    genError s.secretText s.ovf s.alg s.digits s.period s.time = some e →
    ∃ t, exec .gen s = .next t ∧
      t.ClearedK ∧ t.ClearedM ∧ t.ClearedD ∧ t.ClearedV ∧ t.ClearedC ∧
      s.SameConfig t ∧ s.SameSecret t ∧
      s.Records (match e with
        | .invalidSecretEncoding => 1
        | .emptySecret => 2
        | .invalidDigits => 3
        | .invalidPeriod => 4
        | .illegalCommand => 8
        | .sequence => 9
        | .secretOverflow => 10
        | .truncationRange => 11) t

/-- R307: where `GEN` succeeds, the five unit commands leave the same state, in every register, buffer and flag;
`CTR` and `DECU` may be issued in either order. -/
def Obligations.GenEqualsUnitCommands : Prop :=
  ∀ (s t : State), s.slen.toNat ≤ 256 → exec .gen s = .next t → t.lasterr = 0 →
    execAll [.ctr, .decu, .mac, .trunc, .mod] s = .next t ∧
    execAll [.decu, .ctr, .mac, .trunc, .mod] s = .next t

/-- R307: where `GEN` fails with `InvalidSecretEncoding` or `TruncationRange`, the unit commands fail at `DECU` or
`TRUNC` with the same code, the commands after it with `Sequence`, and the groups before it stay valid. -/
def Obligations.GenFailureInUnitCommands : Prop :=
  ∀ (s t : State), s.slen.toNat ≤ 256 → exec .gen s = .next t →
    (t.lasterr = 1 → ∃ a b c d,
      exec .ctr s = .next a ∧ a.lasterr = 0 ∧ exec .decu a = .next b ∧ b.lasterr = 1 ∧
      exec .mac b = .next c ∧ c.lasterr = 9 ∧ exec .trunc c = .next d ∧ d.lasterr = 9 ∧
      d.mv = true ∧ ∃ e, exec .mod d = .next e ∧ e.lasterr = 9) ∧
    (t.lasterr = 11 → ∃ c d,
      execAll [.ctr, .decu, .mac] s = .next c ∧ c.lasterr = 0 ∧
      exec .trunc c = .next d ∧ d.lasterr = 11 ∧ d.kv = true ∧ d.mv = true ∧ d.dv = true ∧
      ∃ e, exec .mod d = .next e ∧ e.lasterr = 9)

/-- R311: `GEN` on a loaded secret computes `generate`: it completes with 0 and leaves the string exactly where
`generate` returns one, and otherwise completes with the code of the error it returns. -/
def Obligations.GenComputesGenerate : Prop :=
  ∀ s : State, s.ovf = false → s.slen.toNat ≤ 256 →
    ∃ t, exec .gen s = .next t ∧
      match generate s.secretText s.alg s.digits s.period s.time with
      | .ok str => t.reply = some (.cmd 0) ∧ t.cv = true ∧ t.codeText = str
      | .error e => t.reply = some (.cmd e.code) ∧ t.cv = false

/-- R311, R354: the whole of it from any state: the host writes the four registers, loads a text and issues `GEN`. -/
def Obligations.HostObtainsGeneratedCode : Prop :=
  ∀ (s : State) (text : List Byte) (alg : BitVec 2) (digits : BitVec 8) (period : Word32)
    (time : Word64), text.length ≤ 256 →
    s.pending = .regWrite 1 (alg.setWidth 64) :: .regWrite 2 (digits.setWidth 64) ::
      .regWrite 3 (period.setWidth 64) :: .regWrite 4 time :: .cmd 0x1000 ::
      (text.map (fun c => .cmd (0x2000 + c.setWidth 16)) ++ [.cmd 0x9000]) →
    ∃ t, core.run (text.length + 6) s = .next t ∧ t.pending = [] ∧
      match generate text alg digits period time with
      | .ok str => t.reply = some (.cmd 0) ∧ t.codeText = str
      | .error e => t.reply = some (.cmd e.code)

/-- R308: two states that agree on the secret text, `OVF` and the four configuration registers get the same
results from `GEN`, whatever else they hold, and `GEN` leaves those inputs as they were. -/
def Obligations.GenDependsOnlyOnInputs : Prop :=
  ∀ (s s' t t' : State), s.secretText = s'.secretText → s.slen = s'.slen → s.ovf = s'.ovf →
    s.SameConfig s' → exec .gen s = .next t → exec .gen s' = .next t' →
    t.SameK t' ∧ t.SameM t' ∧ t.SameD t' ∧ t.SameV t' ∧ t.SameC t' ∧
    t.lasterr = t'.lasterr ∧ t.reply = t'.reply ∧ s.SameConfig t ∧ s.SameSecret t

/-! ## The whole machine -/

/-- R50, R163, R187, R308: no command writes a configuration register, and none but `CLR` and `PUSH` writes the
secret, its length or `OVF`. -/
def Obligations.CommandsKeepInputs : Prop :=
  ∀ (i : Instr) (s t : State), exec i s = .next t →
    s.SameConfig t ∧ (i = .clr ∨ (∃ c, i = .push c) ∨ s.SameSecret t)

/-- R40, R41: a group that was not valid becomes valid only by a command that computes it. -/
def Obligations.OnlyTheirCommandsMakeGroupsValid : Prop :=
  ∀ s t : State, step s = .next t →
    (s.kv = false → t.kv = true → ∃ w rest, s.pending = .cmd w :: rest ∧
      (w = 0x3000 ∨ w = 0x4000 ∨ w = 0x9000)) ∧
    (s.mv = false → t.mv = true → ∃ w rest, s.pending = .cmd w :: rest ∧
      (w = 0x5000 ∨ w = 0x9000)) ∧
    (s.dv = false → t.dv = true → ∃ w rest, s.pending = .cmd w :: rest ∧
      (w = 0x6000 ∨ w = 0x9000)) ∧
    (s.vv = false → t.vv = true → ∃ w rest, s.pending = .cmd w :: rest ∧
      (w = 0x7000 ∨ w = 0x9000)) ∧
    (s.cv = false → t.cv = true → ∃ w rest, s.pending = .cmd w :: rest ∧
      (w = 0x8000 ∨ w = 0x9000))

/-- R324: which command can complete with which code. -/
def Obligations.CompletionCodes : Prop :=
  ∀ (i : Instr) (s t : State), exec i s = .next t →
    match i with
    | .nop | .clr | .clrerr => t.lasterr = 0
    | .push _ => t.lasterr = 0 ∨ t.lasterr = 10
    | .dec | .decu => t.lasterr = 0 ∨ t.lasterr = 1 ∨ t.lasterr = 10
    | .ctr => t.lasterr = 0 ∨ t.lasterr = 4
    | .mac => t.lasterr = 0 ∨ t.lasterr = 9
    | .trunc => t.lasterr = 0 ∨ t.lasterr = 9 ∨ t.lasterr = 11
    | .mod => t.lasterr = 0 ∨ t.lasterr = 3 ∨ t.lasterr = 9
    | .gen => t.lasterr = 0 ∨ t.lasterr = 1 ∨ t.lasterr = 2 ∨ t.lasterr = 3 ∨ t.lasterr = 4 ∨
        t.lasterr = 10 ∨ t.lasterr = 11

/-- R34, R35, R68: the response of a command is `LASTERR` as it stands after it; `EF` is set by a non-zero code,
cleared by `CLRERR`, and otherwise stays; the other transactions but `Reset` leave both alone. -/
def Obligations.ErrorRecordRules : Prop :=
  ∀ (s t : State) (x : Transaction) (rest : List Transaction), s.pending = x :: rest →
    step s = .next t →
    match x with
    | .cmd w => t.reply = some (.cmd t.lasterr) ∧
        (w = 0xA000 → t.ef = false) ∧ (w ≠ 0xA000 → t.ef = (s.ef || t.lasterr != 0))
    | .reset => t.lasterr = 0 ∧ t.ef = false
    | .regRead _ | .regWrite _ _ | .bufRead _ _ => s.SameErrors t

/-! ## Invariants -/

/-- The reset state meets the invariant. -/
def Obligations.ResetMeetsInvariant : Prop := State.reset.Inv

/-- R42: every transaction keeps the invariants on the flags. -/
def Obligations.StepKeepsFlagRules : Prop :=
  ∀ s t : State, s.FlagsConsistent → step s = .next t → t.FlagsConsistent

/-- Every transaction keeps the buffers in canonical form and within their capacities (log 5). -/
def Obligations.StepKeepsBuffersCanonical : Prop :=
  ∀ s t : State, s.Canonical → step s = .next t → t.Canonical

/-- R43 and the last clause of R32, with the bounds of R26, R28 and R30: every transaction keeps the invariants on
the contents. -/
def Obligations.StepKeepsZeroContents : Prop :=
  ∀ s t : State, s.Bounded → s.ZeroBeyond → step s = .next t → t.Bounded ∧ t.ZeroBeyond

/-- R41 to R43 and R28 to R32: every transaction keeps the whole invariant: whatever is marked valid is the function
of the inputs as they now stand, and the bytes beyond it are 0x00. -/
def Obligations.StepKeepsInvariant : Prop :=
  ∀ s t : State, s.Inv → step s = .next t → t.Inv
end

