-- ==== Sys2Proof/Laws/Base32.lean ====
section
/-! SUPPORT. The Base32 decoder one character at a time, in plain arithmetic (41_base32_decoder.md R152 to R158). -/

namespace Sys2Proof.Machine

/-- A value is five bits (30_encoding.md R104). -/
theorem b32val_lt {c : Byte} {v : Nat} (h : b32val c = some v) : v < 32 := by
  unfold b32val at h
  split at h
  · rename_i hc
    have h1 := BitVec.le_def.mp hc.1
    have h2 := BitVec.le_def.mp hc.2
    simp at h h1 h2
    omega
  · split at h
    · rename_i hc
      have h1 := BitVec.le_def.mp hc.1
      have h2 := BitVec.le_def.mp hc.2
      simp at h h1 h2
      omega
    · cases h

/-- The padding character has no value: it is not in the alphabet (R105). -/
@[simp] theorem b32val_padChar : b32val padChar = none := by decide

/-- A character with a value is not padding. -/
theorem ne_padChar_of_b32val {c : Byte} {v : Nat} (h : b32val c = some v) : c ≠ padChar := by
  rintro rfl
  simp at h

@[simp] theorem b32pack_nil (acc nbits : Nat) : b32pack acc nbits [] = some [] := rfl

/-- Padding is skipped (R153). -/
@[simp] theorem b32pack_padChar (acc nbits : Nat) (rest : List Byte) :
    b32pack acc nbits (padChar :: rest) = b32pack acc nbits rest := by
  simp [b32pack]

/-- A character outside the alphabet fails the decode (R154). -/
theorem b32pack_bad {c : Byte} (acc nbits : Nat) (rest : List Byte) (hp : c ≠ padChar)
    (hv : b32val c = none) : b32pack acc nbits (c :: rest) = none := by
  simp [b32pack, hp, hv]

/-- An alphabet character shifts its value in, and a byte goes out when eight bits are there (R155). -/
theorem b32pack_value {c : Byte} {v : Nat} (acc nbits : Nat) (rest : List Byte)
    (hv : b32val c = some v) :
    b32pack acc nbits (c :: rest) =
      if 3 ≤ nbits then
        (b32pack ((acc * 32 + v) % 2 ^ (nbits - 3)) (nbits - 3) rest).map
          (BitVec.ofNat 8 ((acc * 32 + v) / 2 ^ (nbits - 3)) :: ·)
      else b32pack (acc * 32 + v) (nbits + 5) rest := by
  have hor : (acc <<< 5) ||| v = acc * 32 + v := by
    have := Nat.shiftLeft_add_eq_or_of_lt (i := 5) (b32val_lt hv) acc
    rw [← this, Nat.shiftLeft_eq]
  have hbyte : ∀ x : Nat, BitVec.ofNat 8 (x &&& 0xFF) = BitVec.ofNat 8 x := by
    intro x
    apply BitVec.eq_of_toNat_eq
    have : x &&& 0xFF = x % 2 ^ 8 := Nat.and_two_pow_sub_one_eq_mod x 8
    simp [this]
  rw [b32pack, if_neg (ne_padChar_of_b32val hv), hv]
  simp only [hor, hbyte, Nat.shiftRight_eq_div_pow]
  by_cases h3 : 3 ≤ nbits
  · rw [if_pos (show 8 ≤ nbits + 5 by omega), if_pos h3, show nbits + 5 - 8 = nbits - 3 by omega,
      Nat.one_shiftLeft, Nat.and_two_pow_sub_one_eq_mod]
  · rw [if_neg (show ¬ 8 ≤ nbits + 5 by omega), if_neg h3]

/-- The decoder without folding, and with (R156). -/
@[simp] theorem b32decode_false (chars : List Byte) : b32decode chars false = b32pack 0 0 chars := rfl

@[simp] theorem b32decode_true (chars : List Byte) :
    b32decode chars true = b32pack 0 0 (chars.map upcase) := rfl

/-- Folding neither makes nor removes padding (R157). -/
theorem upcase_eq_padChar (c : Byte) : upcase c = padChar ↔ c = padChar := by
  revert c; decide

end Sys2Proof.Machine
end

