-- ==== Sys2Proof/Laws/Hash.lean ====
section
/-! SUPPORT. The lengths of byte forms and digests (00_scope.md R12; 43_hmac.md R203), and the cases of `MAC`. -/

namespace Sys2Proof.Machine

@[simp] theorem length_beBytes (n v : Nat) : (beBytes n v).length = n := by simp [beBytes]

@[simp] theorem length_leBytes (n v : Nat) : (leBytes n v).length = n := by simp [leBytes]

/-- Byte `i` of `be_n(v)` (R12). -/
theorem getD_beBytes {n i : Nat} (v : Nat) (h : i < n) :
    (beBytes n v).getD i 0 = BitVec.ofNat 8 (v >>> (8 * (n - 1 - i))) := by
  simp [beBytes, List.getD_eq_getElem?_getD, h]

/-- The length of an algorithm's digest (R203). -/
@[simp] theorem Algorithm.length_hash (a : Algorithm) (m : List Byte) :
    (a.hash m).length = a.digestLength := by
  cases a <;>
    simp [Algorithm.hash, Algorithm.digestLength, Sys2Proof.Machine.sha1,
      Sys2Proof.Machine.sha256, Sys2Proof.Machine.sha512, Sys2Proof.Machine.md5,
      Sha1Regs.bytes, Sha2Regs.bytes, Md5Regs.bytes]

@[simp] theorem length_hmac (a : Algorithm) (key msg : List Byte) :
    (hmac a key msg).length = a.digestLength := by simp [hmac]

theorem Algorithm.digestLength_le (a : Algorithm) : a.digestLength ≤ Config.digestMax := by
  cases a <;> decide

theorem Algorithm.digestLength_ge (a : Algorithm) : 16 ≤ a.digestLength := by
  cases a <;> decide

theorem Algorithm.digestLength_le_blockSize (a : Algorithm) : a.digestLength ≤ a.blockSize := by
  cases a <;> decide

/-- The cases of `MAC` (R201, R202). -/
theorem execMac_sequence {s : State} (h : s.kv = false ∨ s.mv = false) :
    execMac s = .next (s.clearD.raise .sequence) := by
  unfold execMac
  rcases h with h | h <;> simp [State.clearD, State.clearV, State.clearC, h]

theorem execMac_valid {s : State} (hk : s.kv = true) (hm : s.mv = true) :
    execMac s =
      .next ((s.clearD.putD (hmac (algorithmOf s.alg) s.keyBytes s.msgBytes)).complete 0) := by
  unfold execMac
  simp only [State.clearD, State.clearV, State.clearC, hk, hm, Bool.not_true, Bool.or_self,
    Bool.false_eq_true, if_false]
  rfl

end Sys2Proof.Machine
end

