-- ==== Sys2Proof/Laws/Digits.lean ====
section
/-! SUPPORT. The truncation window and the decimal digits in plain arithmetic (45_truncation_digits.md R282, R283,
R285, R291, R292). -/

namespace Sys2Proof.Machine

/-- The offset is the last byte modulo 16 (R282). -/
theorem truncOffset_eq (digest : List Byte) :
    truncOffset digest = (digest.getD (digest.length - 1) 0).toNat % 16 :=
  Nat.and_two_pow_sub_one_eq_mod _ 4

/-- A high part shifted over a low part adds to it. -/
theorem shift_or (a b k : Nat) (h : b < 2 ^ k) : a * 2 ^ k ||| b = a * 2 ^ k + b := by
  have := Nat.shiftLeft_add_eq_or_of_lt (i := k) h a
  rw [Nat.shiftLeft_eq] at this
  exact this.symm

/-- Four bytes, the first below 128, assembled big-endian. -/
theorem or_four_bytes {a b c d : Nat} (ha : a < 128) (hb : b < 256) (hc : c < 256) (hd : d < 256) :
    ((a <<< 24 % 2 ^ 32 ||| b <<< 16 % 2 ^ 32) ||| c <<< 8 % 2 ^ 32) ||| d =
      a * 2 ^ 24 + b * 2 ^ 16 + c * 2 ^ 8 + d := by
  simp only [Nat.shiftLeft_eq]
  rw [Nat.mod_eq_of_lt (show a * 2 ^ 24 < 2 ^ 32 by omega),
    Nat.mod_eq_of_lt (show b * 2 ^ 16 < 2 ^ 32 by omega),
    Nat.mod_eq_of_lt (show c * 2 ^ 8 < 2 ^ 32 by omega),
    shift_or a (b * 2 ^ 16) 24 (by omega)]
  have h1 := shift_or (a * 2 ^ 8 + b) (c * 2 ^ 8) 16 (by omega)
  have h2 := shift_or (a * 2 ^ 16 + b * 2 ^ 8 + c) d 8 (by omega)
  have e1 : (a * 2 ^ 8 + b) * 2 ^ 16 = a * 2 ^ 24 + b * 2 ^ 16 := by
    simp only [Nat.add_mul, Nat.mul_assoc, ← Nat.pow_add, Nat.reduceAdd]
  have e2 : (a * 2 ^ 16 + b * 2 ^ 8 + c) * 2 ^ 8 = a * 2 ^ 24 + b * 2 ^ 16 + c * 2 ^ 8 := by
    simp only [Nat.add_mul, Nat.mul_assoc, ← Nat.pow_add, Nat.reduceAdd]
  rw [e1] at h1
  rw [e2] at h2
  rw [h1, h2]

/-- The value of the window as a sum (R283). -/
theorem windowValue_toNat (digest : List Byte) (off : Nat) :
    (windowValue digest off).toNat =
      (digest.getD off 0).toNat % 128 * 2 ^ 24 + (digest.getD (off + 1) 0).toNat * 2 ^ 16
        + (digest.getD (off + 2) 0).toNat * 2 ^ 8 + (digest.getD (off + 3) 0).toNat := by
  have hmask : ∀ x : Byte, (x &&& 0x7F).toNat = x.toNat % 128 := fun x => by
    simpa using Nat.and_two_pow_sub_one_eq_mod x.toNat 7
  have hw : ∀ x : Byte, x.toNat % 2 ^ 32 = x.toNat := fun x =>
    Nat.mod_eq_of_lt (Nat.lt_of_lt_of_le x.isLt (by decide))
  unfold windowValue
  simp only [BitVec.toNat_or, BitVec.toNat_shiftLeft, BitVec.toNat_setWidth, hw]
  rw [hmask]
  exact or_four_bytes (Nat.mod_lt _ (by decide)) (BitVec.isLt _) (BitVec.isLt _) (BitVec.isLt _)

/-- Where the window fits, truncation gives its offset and value (R281). -/
theorem truncate_eq_some {digest : List Byte} {offset : BitVec 4} {value : Word32}
    (h : truncate digest = some (offset, value)) :
    offset.toNat = truncOffset digest ∧ value = windowValue digest (truncOffset digest) ∧
      truncOffset digest + 4 ≤ digest.length := by
  unfold truncate at h
  simp only at h
  split at h
  · cases h
  · cases h
    have : truncOffset digest < 16 := by rw [truncOffset_eq]; omega
    exact ⟨by simp; omega, rfl, by omega⟩

/-- Truncation fails exactly where the window runs past the digest (R285). -/
theorem truncate_eq_none {digest : List Byte} :
    truncate digest = none ↔ digest.length < truncOffset digest + 4 := by
  unfold truncate
  simp only
  split <;> simp [*]

@[simp] theorem length_digitChars (n code : Nat) : (digitChars n code).length = n := by
  simp [digitChars]

/-- Digit `i` (R292). -/
theorem getD_digitChars {n code i : Nat} (h : i < n) :
    ((digitChars n code).getD i 0).toNat = 0x30 + code / 10 ^ (n - 1 - i) % 10 := by
  simp [digitChars, List.getD_eq_getElem?_getD, h]
  omega

/-- A code of at most eight digits fits its register (R291). -/
theorem codeOf_toNat {value : Word32} {digits : BitVec 8} (h : digits.toNat ≤ 8) :
    (BitVec.ofNat 32 (codeOf value digits)).toNat = value.toNat % 10 ^ digits.toNat := by
  rw [BitVec.toNat_ofNat]
  apply Nat.mod_eq_of_lt
  have h1 : codeOf value digits < 10 ^ digits.toNat := Nat.mod_lt _ (Nat.pow_pos (by decide))
  have h2 : 10 ^ digits.toNat ≤ 10 ^ 8 := Nat.pow_le_pow_right (by decide) h
  omega

end Sys2Proof.Machine
end

