-- ==== Sys2Proof/Laws/Memory.lean ====
section
/-! SUPPORT. The laws of a buffer: read after write, what a write leaves, the canonical form, and the byte strings
stored to and read from a buffer. -/

namespace Sys2Proof.Machine

theorem Memory.read_nil (i : Nat) : Memory.read [] i = 0 := rfl

theorem Memory.read_cons (j : Nat) (b : Byte) (m : Memory) (i : Nat) :
    Memory.read ((j, b) :: m) i = if j = i then b else Memory.read m i := rfl

/-- Below its first index a canonical list reads as unlisted. -/
theorem Memory.read_below {m : Memory} {lo i : Nat} (h : m.wfFrom lo = true) (hi : i < lo) :
    m.read i = 0 := by
  induction m generalizing lo with
  | nil => rfl
  | cons cell rest ih =>
    obtain ⟨j, b⟩ := cell
    simp only [Memory.wfFrom, Bool.and_eq_true, decide_eq_true_eq] at h
    rw [Memory.read_cons, if_neg (by omega), ih h.2 (by omega)]

theorem Memory.wfFrom_mono {m : Memory} {lo lo' : Nat} (h : m.wfFrom lo = true) (hl : lo' ≤ lo) :
    m.wfFrom lo' = true := by
  cases m with
  | nil => rfl
  | cons cell rest =>
    obtain ⟨j, b⟩ := cell
    simp only [Memory.wfFrom, Bool.and_eq_true, decide_eq_true_eq] at h ⊢
    exact ⟨⟨by omega, h.1.2⟩, h.2⟩

/-- An entry put before a canonical list reads as its byte at its own index. -/
theorem Memory.read_entry_append {m : Memory} {i : Nat} (b : Byte) (h : m.wfFrom (i + 1) = true) :
    Memory.read (Memory.entry i b ++ m) i = b := by
  unfold Memory.entry
  split
  · rename_i hb
    rw [List.nil_append, Memory.read_below h (by omega), hb]
    rfl
  · simp [Memory.read_cons]

theorem Memory.read_entry_append_ne {m : Memory} {i j : Nat} (b : Byte) (h : i ≠ j) :
    Memory.read (Memory.entry i b ++ m) j = m.read j := by
  unfold Memory.entry
  split
  · rfl
  · simp [Memory.read_cons, h]

/-- A read after a write to the same index gives the byte written. -/
theorem Memory.read_write {m : Memory} {lo i : Nat} (b : Byte) (h : m.wfFrom lo = true) :
    (m.write i b).read i = b := by
  induction m generalizing lo with
  | nil => simpa [Memory.write] using Memory.read_entry_append (m := []) (i := i) b rfl
  | cons cell rest ih =>
    obtain ⟨j, c⟩ := cell
    simp only [Memory.wfFrom, Bool.and_eq_true, decide_eq_true_eq] at h
    unfold Memory.write
    split
    · refine Memory.read_entry_append b ?_
      simp only [Memory.wfFrom, Bool.and_eq_true, decide_eq_true_eq]
      exact ⟨⟨by omega, h.1.2⟩, h.2⟩
    · split
      · rename_i hij
        exact Memory.read_entry_append b (by rw [hij]; exact h.2)
      · rw [Memory.read_cons, if_neg (by omega), ih h.2]

/-- A write leaves every other index alone. -/
theorem Memory.read_write_ne (m : Memory) {i j : Nat} (b : Byte) (h : i ≠ j) :
    (m.write i b).read j = m.read j := by
  induction m with
  | nil => simpa [Memory.write] using Memory.read_entry_append_ne (m := []) b h
  | cons cell rest ih =>
    obtain ⟨k, c⟩ := cell
    unfold Memory.write
    split
    · exact Memory.read_entry_append_ne b h
    · split
      · rename_i hik
        rw [Memory.read_entry_append_ne b h, Memory.read_cons, if_neg (by omega)]
      · simp only [Memory.read_cons, ih]

/-- Putting an entry in front keeps the canonical form. -/
theorem Memory.wfFrom_entry_append {m : Memory} {lo i : Nat} (b : Byte) (hl : lo ≤ i)
    (h : m.wfFrom (i + 1) = true) : (Memory.entry i b ++ m).wfFrom lo = true := by
  unfold Memory.entry
  split
  · exact Memory.wfFrom_mono h (by omega)
  · rename_i hb
    simpa [Memory.wfFrom, hl, h] using hb

/-- A write keeps the canonical form. -/
theorem Memory.wfFrom_write {m : Memory} {lo i : Nat} (b : Byte) (h : m.wfFrom lo = true)
    (hl : lo ≤ i) : (m.write i b).wfFrom lo = true := by
  induction m generalizing lo with
  | nil => simpa [Memory.write] using Memory.wfFrom_entry_append (m := []) b hl rfl
  | cons cell rest ih =>
    obtain ⟨j, c⟩ := cell
    simp only [Memory.wfFrom, Bool.and_eq_true, decide_eq_true_eq] at h
    unfold Memory.write
    split
    · refine Memory.wfFrom_entry_append b hl ?_
      simp only [Memory.wfFrom, Bool.and_eq_true, decide_eq_true_eq]
      exact ⟨⟨by omega, h.1.2⟩, h.2⟩
    · split
      · rename_i hij
        exact Memory.wfFrom_entry_append b hl (by rw [hij]; exact h.2)
      · simp only [Memory.wfFrom, Bool.and_eq_true, decide_eq_true_eq]
        exact ⟨⟨h.1.1, h.1.2⟩, ih h.2 (by omega)⟩

theorem Memory.wf_write {m : Memory} (i : Nat) (b : Byte) (h : m.wf = true) :
    (m.write i b).wf = true :=
  Memory.wfFrom_write b h (Nat.zero_le i)

theorem Memory.within_write {m : Memory} {cap i : Nat} (b : Byte) (h : m.within cap = true)
    (hi : i < cap) : (m.write i b).within cap = true := by
  have he : ∀ r : Memory, r.within cap = true → (Memory.entry i b ++ r).within cap = true := by
    intro r hr
    unfold Memory.entry
    split
    · exact hr
    · simpa [Memory.within, hi] using hr
  induction m with
  | nil => simpa [Memory.write] using he [] rfl
  | cons cell rest ih =>
    have hrest : Memory.within cap rest = true := by
      simp only [Memory.within, List.all_cons, Bool.and_eq_true] at h ⊢; exact h.2
    unfold Memory.write
    split
    · exact he _ h
    · split
      · exact he _ hrest
      · simp only [Memory.within, List.all_cons, Bool.and_eq_true] at h ⊢
        exact ⟨h.1, ih hrest⟩

/-! ### Writes within a capacity -/

theorem Memory.wf_store {m : Memory} (cap i : Nat) (b : Byte) (h : m.wf = true) :
    (m.store cap i b).wf = true := by
  unfold Memory.store; split
  · exact Memory.wf_write i b h
  · exact h

theorem Memory.within_store {m : Memory} {cap : Nat} (i : Nat) (b : Byte)
    (h : m.within cap = true) : (m.store cap i b).within cap = true := by
  unfold Memory.store; split
  · exact Memory.within_write b h ‹_›
  · exact h

theorem Memory.read_store {m : Memory} {cap i : Nat} (b : Byte) (h : m.wf = true) (hi : i < cap) :
    (m.store cap i b).read i = b := by
  rw [Memory.store, if_pos hi]; exact Memory.read_write b h

theorem Memory.read_store_ne (m : Memory) (cap : Nat) {i j : Nat} (b : Byte) (h : i ≠ j) :
    (m.store cap i b).read j = m.read j := by
  unfold Memory.store; split
  · exact Memory.read_write_ne m b h
  · rfl

theorem Memory.wf_storeBytes {m : Memory} (cap i : Nat) (bytes : List Byte) (h : m.wf = true) :
    (m.storeBytes cap i bytes).wf = true := by
  induction bytes generalizing m i with
  | nil => exact h
  | cons b rest ih => exact ih (i + 1) (Memory.wf_store cap i b h)

theorem Memory.within_storeBytes {m : Memory} {cap : Nat} (i : Nat) (bytes : List Byte)
    (h : m.within cap = true) : (m.storeBytes cap i bytes).within cap = true := by
  induction bytes generalizing m i with
  | nil => exact h
  | cons b rest ih => exact ih (i + 1) (Memory.within_store i b h)

/-- What storing a byte string can do to a byte: the string's byte within its range, else nothing. -/
theorem Memory.read_storeBytes {m : Memory} {cap : Nat} (i : Nat) (bytes : List Byte) (j : Nat)
    (h : m.wf = true) (hc : i + bytes.length ≤ cap) :
    (m.storeBytes cap i bytes).read j =
      if i ≤ j ∧ j < i + bytes.length then bytes.getD (j - i) 0 else m.read j := by
  induction bytes generalizing m i with
  | nil => simp only [Memory.storeBytes, List.length_nil, Nat.add_zero]; rw [if_neg (by omega)]
  | cons b rest ih =>
    rw [List.length_cons] at hc ⊢
    rw [Memory.storeBytes, ih (i + 1) (Memory.wf_store cap i b h) (by omega)]
    by_cases hj : j = i
    · subst hj
      rw [if_neg (by omega), if_pos (by omega), Memory.read_store b h (by omega), Nat.sub_self]
      rfl
    · rw [Memory.read_store_ne m cap b (Ne.symm hj)]
      by_cases hr : i + 1 ≤ j ∧ j < i + 1 + rest.length
      · rw [if_pos hr, if_pos (by omega)]
        obtain ⟨k, hk⟩ : ∃ k, j - i = k + 1 := ⟨j - i - 1, by omega⟩
        rw [hk, show j - (i + 1) = k by omega]
        rfl
      · rw [if_neg hr, if_neg (by omega)]

/-! ### Byte strings read -/

@[simp] theorem Memory.length_readBytes (m : Memory) (i n : Nat) :
    (m.readBytes i n).length = n := by
  induction n generalizing i with
  | zero => rfl
  | succ k ih => simp [Memory.readBytes, ih]

theorem Memory.getElem?_readBytes (m : Memory) (i n j : Nat) :
    (m.readBytes i n)[j]? = if j < n then some (m.read (i + j)) else none := by
  induction n generalizing i j with
  | zero => simp [Memory.readBytes]
  | succ k ih =>
    cases j with
    | zero => simp [Memory.readBytes]
    | succ j =>
      simp only [Memory.readBytes, List.getElem?_cons_succ, ih, Nat.add_lt_add_iff_right]
      rw [show i + 1 + j = i + (j + 1) by omega]

theorem Memory.getD_readBytes (m : Memory) {n j : Nat} (h : j < n) :
    (m.readBytes 0 n).getD j 0 = m.read j := by
  rw [List.getD_eq_getElem?_getD, Memory.getElem?_readBytes, if_pos h, Nat.zero_add]
  rfl

/-- Two buffers that read alike give the same byte string. -/
theorem Memory.readBytes_congr {m m' : Memory} (i n : Nat)
    (h : ∀ j, i ≤ j → j < i + n → m.read j = m'.read j) : m.readBytes i n = m'.readBytes i n := by
  induction n generalizing i with
  | zero => rfl
  | succ k ih =>
    simp only [Memory.readBytes]
    rw [h i (by omega) (by omega), ih (i + 1) (fun j hj hj' => h j (by omega) (by omega))]

/-- A string stored to an empty buffer is read back whole. -/
theorem Memory.readBytes_storeBytes_nil {cap : Nat} (bytes : List Byte) (h : bytes.length ≤ cap) :
    (Memory.storeBytes cap [] 0 bytes).readBytes 0 bytes.length = bytes := by
  apply List.ext_getElem?
  intro j
  rw [Memory.getElem?_readBytes]
  split
  · rename_i hj
    rw [Memory.read_storeBytes 0 bytes (0 + j) rfl (by omega), if_pos (by omega),
      List.getD_eq_getElem?_getD]
    simp [List.getElem?_eq_getElem hj]
  · rename_i hj
    simp [List.getElem?_eq_none (Nat.le_of_not_lt hj)]

/-- A string stored to an empty buffer stands from index 0, with 0x00 after it. -/
theorem Memory.read_storeBytes_nil {cap : Nat} (bytes : List Byte) (h : bytes.length ≤ cap)
    (j : Nat) : (Memory.storeBytes cap [] 0 bytes).read j = bytes.getD j 0 := by
  rw [Memory.read_storeBytes 0 bytes j rfl (by omega)]
  split
  · rw [Nat.sub_zero]
  · rename_i hj
    rw [List.getD_eq_getElem?_getD, List.getElem?_eq_none (by omega)]
    rfl

/-! ### Canonical buffers that read alike are equal -/

theorem Memory.wfFrom_ext {m m' : Memory} {lo : Nat} (h : m.wfFrom lo = true)
    (h' : m'.wfFrom lo = true) (hr : ∀ i, m.read i = m'.read i) : m = m' := by
  induction m generalizing m' lo with
  | nil =>
    cases m' with
    | nil => rfl
    | cons cell rest =>
      obtain ⟨j, b⟩ := cell
      simp only [Memory.wfFrom, Bool.and_eq_true, bne_iff_ne] at h'
      have := hr j
      rw [Memory.read_cons, if_pos rfl, Memory.read_nil] at this
      exact absurd this.symm h'.1.2
  | cons cell rest ih =>
    obtain ⟨j, b⟩ := cell
    cases m' with
    | nil =>
      simp only [Memory.wfFrom, Bool.and_eq_true, bne_iff_ne] at h
      have := hr j
      rw [Memory.read_cons, if_pos rfl, Memory.read_nil] at this
      exact absurd this h.1.2
    | cons cell' rest' =>
      obtain ⟨j', b'⟩ := cell'
      simp only [Memory.wfFrom, Bool.and_eq_true, bne_iff_ne, decide_eq_true_eq] at h h'
      have below : ∀ {r : Memory} {k i : Nat}, r.wfFrom (k + 1) = true → i ≤ k → r.read i = 0 :=
        fun hk hi => Memory.read_below hk (by omega)
      have hj : j = j' := by
        rcases Nat.lt_trichotomy j j' with hlt | heq | hgt
        · have := hr j
          rw [Memory.read_cons, if_pos rfl, Memory.read_cons, if_neg (by omega),
            below h'.2 (by omega)] at this
          exact absurd this h.1.2
        · exact heq
        · have := hr j'
          rw [Memory.read_cons, if_neg (by omega), below h.2 (by omega), Memory.read_cons,
            if_pos rfl] at this
          exact absurd this.symm h'.1.2
      subst hj
      have hb : b = b' := by
        have := hr j
        rwa [Memory.read_cons, if_pos rfl, Memory.read_cons, if_pos rfl] at this
      subst hb
      congr 1
      refine ih h.2 h'.2 fun i => ?_
      by_cases hi : i ≤ j
      · rw [below h.2 hi, below h'.2 hi]
      · have := hr i
        rwa [Memory.read_cons, if_neg (by omega), Memory.read_cons, if_neg (by omega)] at this

/-- The canonical form is canonical: equal contents, equal data. -/
theorem Memory.wf_ext {m m' : Memory} (h : m.wf = true) (h' : m'.wf = true)
    (hr : ∀ i, m.read i = m'.read i) : m = m' :=
  Memory.wfFrom_ext h h' hr

end Sys2Proof.Machine
end

