-- ==== Sys2Proof/Laws/State.lean ====
section
/-! SUPPORT. One lemma per field per update of the state, so that no proof unfolds a record update. -/

namespace Sys2Proof.Machine

variable (s : State)

/-! ### `clear(C)` -/

@[simp] theorem State.clearC_alg : s.clearC.alg = s.alg := rfl
@[simp] theorem State.clearC_digits : s.clearC.digits = s.digits := rfl
@[simp] theorem State.clearC_period : s.clearC.period = s.period := rfl
@[simp] theorem State.clearC_time : s.clearC.time = s.time := rfl
@[simp] theorem State.clearC_secret : s.clearC.secret = s.secret := rfl
@[simp] theorem State.clearC_slen : s.clearC.slen = s.slen := rfl
@[simp] theorem State.clearC_ovf : s.clearC.ovf = s.ovf := rfl
@[simp] theorem State.clearC_key : s.clearC.key = s.key := rfl
@[simp] theorem State.clearC_klen : s.clearC.klen = s.klen := rfl
@[simp] theorem State.clearC_kv : s.clearC.kv = s.kv := rfl
@[simp] theorem State.clearC_counter : s.clearC.counter = s.counter := rfl
@[simp] theorem State.clearC_msg : s.clearC.msg = s.msg := rfl
@[simp] theorem State.clearC_trem : s.clearC.trem = s.trem := rfl
@[simp] theorem State.clearC_mv : s.clearC.mv = s.mv := rfl
@[simp] theorem State.clearC_digest : s.clearC.digest = s.digest := rfl
@[simp] theorem State.clearC_dlen : s.clearC.dlen = s.dlen := rfl
@[simp] theorem State.clearC_dv : s.clearC.dv = s.dv := rfl
@[simp] theorem State.clearC_offset : s.clearC.offset = s.offset := rfl
@[simp] theorem State.clearC_value : s.clearC.value = s.value := rfl
@[simp] theorem State.clearC_vv : s.clearC.vv = s.vv := rfl
@[simp] theorem State.clearC_code : s.clearC.code = 0 := rfl
@[simp] theorem State.clearC_codestr : s.clearC.codestr = [] := rfl
@[simp] theorem State.clearC_cv : s.clearC.cv = false := rfl
@[simp] theorem State.clearC_lasterr : s.clearC.lasterr = s.lasterr := rfl
@[simp] theorem State.clearC_ef : s.clearC.ef = s.ef := rfl
@[simp] theorem State.clearC_pending : s.clearC.pending = s.pending := rfl
@[simp] theorem State.clearC_reply : s.clearC.reply = s.reply := rfl

/-! ### `clear(V)` -/

@[simp] theorem State.clearV_alg : s.clearV.alg = s.alg := rfl
@[simp] theorem State.clearV_digits : s.clearV.digits = s.digits := rfl
@[simp] theorem State.clearV_period : s.clearV.period = s.period := rfl
@[simp] theorem State.clearV_time : s.clearV.time = s.time := rfl
@[simp] theorem State.clearV_secret : s.clearV.secret = s.secret := rfl
@[simp] theorem State.clearV_slen : s.clearV.slen = s.slen := rfl
@[simp] theorem State.clearV_ovf : s.clearV.ovf = s.ovf := rfl
@[simp] theorem State.clearV_key : s.clearV.key = s.key := rfl
@[simp] theorem State.clearV_klen : s.clearV.klen = s.klen := rfl
@[simp] theorem State.clearV_kv : s.clearV.kv = s.kv := rfl
@[simp] theorem State.clearV_counter : s.clearV.counter = s.counter := rfl
@[simp] theorem State.clearV_msg : s.clearV.msg = s.msg := rfl
@[simp] theorem State.clearV_trem : s.clearV.trem = s.trem := rfl
@[simp] theorem State.clearV_mv : s.clearV.mv = s.mv := rfl
@[simp] theorem State.clearV_digest : s.clearV.digest = s.digest := rfl
@[simp] theorem State.clearV_dlen : s.clearV.dlen = s.dlen := rfl
@[simp] theorem State.clearV_dv : s.clearV.dv = s.dv := rfl
@[simp] theorem State.clearV_offset : s.clearV.offset = 0 := rfl
@[simp] theorem State.clearV_value : s.clearV.value = 0 := rfl
@[simp] theorem State.clearV_vv : s.clearV.vv = false := rfl
@[simp] theorem State.clearV_code : s.clearV.code = 0 := rfl
@[simp] theorem State.clearV_codestr : s.clearV.codestr = [] := rfl
@[simp] theorem State.clearV_cv : s.clearV.cv = false := rfl
@[simp] theorem State.clearV_lasterr : s.clearV.lasterr = s.lasterr := rfl
@[simp] theorem State.clearV_ef : s.clearV.ef = s.ef := rfl
@[simp] theorem State.clearV_pending : s.clearV.pending = s.pending := rfl
@[simp] theorem State.clearV_reply : s.clearV.reply = s.reply := rfl

/-! ### `clear(D)` -/

@[simp] theorem State.clearD_alg : s.clearD.alg = s.alg := rfl
@[simp] theorem State.clearD_digits : s.clearD.digits = s.digits := rfl
@[simp] theorem State.clearD_period : s.clearD.period = s.period := rfl
@[simp] theorem State.clearD_time : s.clearD.time = s.time := rfl
@[simp] theorem State.clearD_secret : s.clearD.secret = s.secret := rfl
@[simp] theorem State.clearD_slen : s.clearD.slen = s.slen := rfl
@[simp] theorem State.clearD_ovf : s.clearD.ovf = s.ovf := rfl
@[simp] theorem State.clearD_key : s.clearD.key = s.key := rfl
@[simp] theorem State.clearD_klen : s.clearD.klen = s.klen := rfl
@[simp] theorem State.clearD_kv : s.clearD.kv = s.kv := rfl
@[simp] theorem State.clearD_counter : s.clearD.counter = s.counter := rfl
@[simp] theorem State.clearD_msg : s.clearD.msg = s.msg := rfl
@[simp] theorem State.clearD_trem : s.clearD.trem = s.trem := rfl
@[simp] theorem State.clearD_mv : s.clearD.mv = s.mv := rfl
@[simp] theorem State.clearD_digest : s.clearD.digest = [] := rfl
@[simp] theorem State.clearD_dlen : s.clearD.dlen = 0 := rfl
@[simp] theorem State.clearD_dv : s.clearD.dv = false := rfl
@[simp] theorem State.clearD_offset : s.clearD.offset = 0 := rfl
@[simp] theorem State.clearD_value : s.clearD.value = 0 := rfl
@[simp] theorem State.clearD_vv : s.clearD.vv = false := rfl
@[simp] theorem State.clearD_code : s.clearD.code = 0 := rfl
@[simp] theorem State.clearD_codestr : s.clearD.codestr = [] := rfl
@[simp] theorem State.clearD_cv : s.clearD.cv = false := rfl
@[simp] theorem State.clearD_lasterr : s.clearD.lasterr = s.lasterr := rfl
@[simp] theorem State.clearD_ef : s.clearD.ef = s.ef := rfl
@[simp] theorem State.clearD_pending : s.clearD.pending = s.pending := rfl
@[simp] theorem State.clearD_reply : s.clearD.reply = s.reply := rfl

/-! ### `clear(K)` -/

@[simp] theorem State.clearK_alg : s.clearK.alg = s.alg := rfl
@[simp] theorem State.clearK_digits : s.clearK.digits = s.digits := rfl
@[simp] theorem State.clearK_period : s.clearK.period = s.period := rfl
@[simp] theorem State.clearK_time : s.clearK.time = s.time := rfl
@[simp] theorem State.clearK_secret : s.clearK.secret = s.secret := rfl
@[simp] theorem State.clearK_slen : s.clearK.slen = s.slen := rfl
@[simp] theorem State.clearK_ovf : s.clearK.ovf = s.ovf := rfl
@[simp] theorem State.clearK_key : s.clearK.key = [] := rfl
@[simp] theorem State.clearK_klen : s.clearK.klen = 0 := rfl
@[simp] theorem State.clearK_kv : s.clearK.kv = false := rfl
@[simp] theorem State.clearK_counter : s.clearK.counter = s.counter := rfl
@[simp] theorem State.clearK_msg : s.clearK.msg = s.msg := rfl
@[simp] theorem State.clearK_trem : s.clearK.trem = s.trem := rfl
@[simp] theorem State.clearK_mv : s.clearK.mv = s.mv := rfl
@[simp] theorem State.clearK_digest : s.clearK.digest = [] := rfl
@[simp] theorem State.clearK_dlen : s.clearK.dlen = 0 := rfl
@[simp] theorem State.clearK_dv : s.clearK.dv = false := rfl
@[simp] theorem State.clearK_offset : s.clearK.offset = 0 := rfl
@[simp] theorem State.clearK_value : s.clearK.value = 0 := rfl
@[simp] theorem State.clearK_vv : s.clearK.vv = false := rfl
@[simp] theorem State.clearK_code : s.clearK.code = 0 := rfl
@[simp] theorem State.clearK_codestr : s.clearK.codestr = [] := rfl
@[simp] theorem State.clearK_cv : s.clearK.cv = false := rfl
@[simp] theorem State.clearK_lasterr : s.clearK.lasterr = s.lasterr := rfl
@[simp] theorem State.clearK_ef : s.clearK.ef = s.ef := rfl
@[simp] theorem State.clearK_pending : s.clearK.pending = s.pending := rfl
@[simp] theorem State.clearK_reply : s.clearK.reply = s.reply := rfl

/-! ### `clear(M)` -/

@[simp] theorem State.clearM_alg : s.clearM.alg = s.alg := rfl
@[simp] theorem State.clearM_digits : s.clearM.digits = s.digits := rfl
@[simp] theorem State.clearM_period : s.clearM.period = s.period := rfl
@[simp] theorem State.clearM_time : s.clearM.time = s.time := rfl
@[simp] theorem State.clearM_secret : s.clearM.secret = s.secret := rfl
@[simp] theorem State.clearM_slen : s.clearM.slen = s.slen := rfl
@[simp] theorem State.clearM_ovf : s.clearM.ovf = s.ovf := rfl
@[simp] theorem State.clearM_key : s.clearM.key = s.key := rfl
@[simp] theorem State.clearM_klen : s.clearM.klen = s.klen := rfl
@[simp] theorem State.clearM_kv : s.clearM.kv = s.kv := rfl
@[simp] theorem State.clearM_counter : s.clearM.counter = 0 := rfl
@[simp] theorem State.clearM_msg : s.clearM.msg = [] := rfl
@[simp] theorem State.clearM_trem : s.clearM.trem = 0 := rfl
@[simp] theorem State.clearM_mv : s.clearM.mv = false := rfl
@[simp] theorem State.clearM_digest : s.clearM.digest = [] := rfl
@[simp] theorem State.clearM_dlen : s.clearM.dlen = 0 := rfl
@[simp] theorem State.clearM_dv : s.clearM.dv = false := rfl
@[simp] theorem State.clearM_offset : s.clearM.offset = 0 := rfl
@[simp] theorem State.clearM_value : s.clearM.value = 0 := rfl
@[simp] theorem State.clearM_vv : s.clearM.vv = false := rfl
@[simp] theorem State.clearM_code : s.clearM.code = 0 := rfl
@[simp] theorem State.clearM_codestr : s.clearM.codestr = [] := rfl
@[simp] theorem State.clearM_cv : s.clearM.cv = false := rfl
@[simp] theorem State.clearM_lasterr : s.clearM.lasterr = s.lasterr := rfl
@[simp] theorem State.clearM_ef : s.clearM.ef = s.ef := rfl
@[simp] theorem State.clearM_pending : s.clearM.pending = s.pending := rfl
@[simp] theorem State.clearM_reply : s.clearM.reply = s.reply := rfl

/-! ### writing group K -/

@[simp] theorem State.putK_alg (b : List Byte) : (s.putK b).alg = s.alg := rfl
@[simp] theorem State.putK_digits (b : List Byte) : (s.putK b).digits = s.digits := rfl
@[simp] theorem State.putK_period (b : List Byte) : (s.putK b).period = s.period := rfl
@[simp] theorem State.putK_time (b : List Byte) : (s.putK b).time = s.time := rfl
@[simp] theorem State.putK_secret (b : List Byte) : (s.putK b).secret = s.secret := rfl
@[simp] theorem State.putK_slen (b : List Byte) : (s.putK b).slen = s.slen := rfl
@[simp] theorem State.putK_ovf (b : List Byte) : (s.putK b).ovf = s.ovf := rfl
@[simp] theorem State.putK_key (b : List Byte) :
    (s.putK b).key = s.key.storeBytes Config.keyMax 0 b := rfl
@[simp] theorem State.putK_klen (b : List Byte) : (s.putK b).klen = BitVec.ofNat 16 b.length := rfl
@[simp] theorem State.putK_kv (b : List Byte) : (s.putK b).kv = true := rfl
@[simp] theorem State.putK_counter (b : List Byte) : (s.putK b).counter = s.counter := rfl
@[simp] theorem State.putK_msg (b : List Byte) : (s.putK b).msg = s.msg := rfl
@[simp] theorem State.putK_trem (b : List Byte) : (s.putK b).trem = s.trem := rfl
@[simp] theorem State.putK_mv (b : List Byte) : (s.putK b).mv = s.mv := rfl
@[simp] theorem State.putK_digest (b : List Byte) : (s.putK b).digest = s.digest := rfl
@[simp] theorem State.putK_dlen (b : List Byte) : (s.putK b).dlen = s.dlen := rfl
@[simp] theorem State.putK_dv (b : List Byte) : (s.putK b).dv = s.dv := rfl
@[simp] theorem State.putK_offset (b : List Byte) : (s.putK b).offset = s.offset := rfl
@[simp] theorem State.putK_value (b : List Byte) : (s.putK b).value = s.value := rfl
@[simp] theorem State.putK_vv (b : List Byte) : (s.putK b).vv = s.vv := rfl
@[simp] theorem State.putK_code (b : List Byte) : (s.putK b).code = s.code := rfl
@[simp] theorem State.putK_codestr (b : List Byte) : (s.putK b).codestr = s.codestr := rfl
@[simp] theorem State.putK_cv (b : List Byte) : (s.putK b).cv = s.cv := rfl
@[simp] theorem State.putK_lasterr (b : List Byte) : (s.putK b).lasterr = s.lasterr := rfl
@[simp] theorem State.putK_ef (b : List Byte) : (s.putK b).ef = s.ef := rfl
@[simp] theorem State.putK_pending (b : List Byte) : (s.putK b).pending = s.pending := rfl
@[simp] theorem State.putK_reply (b : List Byte) : (s.putK b).reply = s.reply := rfl

/-! ### writing group M -/

@[simp] theorem State.putM_alg (q : Word64) (r : Word32) : (s.putM q r).alg = s.alg := rfl
@[simp] theorem State.putM_digits (q : Word64) (r : Word32) : (s.putM q r).digits = s.digits := rfl
@[simp] theorem State.putM_period (q : Word64) (r : Word32) : (s.putM q r).period = s.period := rfl
@[simp] theorem State.putM_time (q : Word64) (r : Word32) : (s.putM q r).time = s.time := rfl
@[simp] theorem State.putM_secret (q : Word64) (r : Word32) : (s.putM q r).secret = s.secret := rfl
@[simp] theorem State.putM_slen (q : Word64) (r : Word32) : (s.putM q r).slen = s.slen := rfl
@[simp] theorem State.putM_ovf (q : Word64) (r : Word32) : (s.putM q r).ovf = s.ovf := rfl
@[simp] theorem State.putM_key (q : Word64) (r : Word32) : (s.putM q r).key = s.key := rfl
@[simp] theorem State.putM_klen (q : Word64) (r : Word32) : (s.putM q r).klen = s.klen := rfl
@[simp] theorem State.putM_kv (q : Word64) (r : Word32) : (s.putM q r).kv = s.kv := rfl
@[simp] theorem State.putM_counter (q : Word64) (r : Word32) : (s.putM q r).counter = q := rfl
@[simp] theorem State.putM_msg (q : Word64) (r : Word32) :
    (s.putM q r).msg = s.msg.storeBytes Config.msgLen 0 (beBytes Config.msgLen q.toNat) := rfl
@[simp] theorem State.putM_trem (q : Word64) (r : Word32) : (s.putM q r).trem = r := rfl
@[simp] theorem State.putM_mv (q : Word64) (r : Word32) : (s.putM q r).mv = true := rfl
@[simp] theorem State.putM_digest (q : Word64) (r : Word32) : (s.putM q r).digest = s.digest := rfl
@[simp] theorem State.putM_dlen (q : Word64) (r : Word32) : (s.putM q r).dlen = s.dlen := rfl
@[simp] theorem State.putM_dv (q : Word64) (r : Word32) : (s.putM q r).dv = s.dv := rfl
@[simp] theorem State.putM_offset (q : Word64) (r : Word32) : (s.putM q r).offset = s.offset := rfl
@[simp] theorem State.putM_value (q : Word64) (r : Word32) : (s.putM q r).value = s.value := rfl
@[simp] theorem State.putM_vv (q : Word64) (r : Word32) : (s.putM q r).vv = s.vv := rfl
@[simp] theorem State.putM_code (q : Word64) (r : Word32) : (s.putM q r).code = s.code := rfl
@[simp] theorem State.putM_codestr (q : Word64) (r : Word32) : (s.putM q r).codestr = s.codestr := rfl
@[simp] theorem State.putM_cv (q : Word64) (r : Word32) : (s.putM q r).cv = s.cv := rfl
@[simp] theorem State.putM_lasterr (q : Word64) (r : Word32) : (s.putM q r).lasterr = s.lasterr := rfl
@[simp] theorem State.putM_ef (q : Word64) (r : Word32) : (s.putM q r).ef = s.ef := rfl
@[simp] theorem State.putM_pending (q : Word64) (r : Word32) : (s.putM q r).pending = s.pending := rfl
@[simp] theorem State.putM_reply (q : Word64) (r : Word32) : (s.putM q r).reply = s.reply := rfl

/-! ### writing group D -/

@[simp] theorem State.putD_alg (b : List Byte) : (s.putD b).alg = s.alg := rfl
@[simp] theorem State.putD_digits (b : List Byte) : (s.putD b).digits = s.digits := rfl
@[simp] theorem State.putD_period (b : List Byte) : (s.putD b).period = s.period := rfl
@[simp] theorem State.putD_time (b : List Byte) : (s.putD b).time = s.time := rfl
@[simp] theorem State.putD_secret (b : List Byte) : (s.putD b).secret = s.secret := rfl
@[simp] theorem State.putD_slen (b : List Byte) : (s.putD b).slen = s.slen := rfl
@[simp] theorem State.putD_ovf (b : List Byte) : (s.putD b).ovf = s.ovf := rfl
@[simp] theorem State.putD_key (b : List Byte) : (s.putD b).key = s.key := rfl
@[simp] theorem State.putD_klen (b : List Byte) : (s.putD b).klen = s.klen := rfl
@[simp] theorem State.putD_kv (b : List Byte) : (s.putD b).kv = s.kv := rfl
@[simp] theorem State.putD_counter (b : List Byte) : (s.putD b).counter = s.counter := rfl
@[simp] theorem State.putD_msg (b : List Byte) : (s.putD b).msg = s.msg := rfl
@[simp] theorem State.putD_trem (b : List Byte) : (s.putD b).trem = s.trem := rfl
@[simp] theorem State.putD_mv (b : List Byte) : (s.putD b).mv = s.mv := rfl
@[simp] theorem State.putD_digest (b : List Byte) :
    (s.putD b).digest = s.digest.storeBytes Config.digestMax 0 b := rfl
@[simp] theorem State.putD_dlen (b : List Byte) : (s.putD b).dlen = BitVec.ofNat 8 b.length := rfl
@[simp] theorem State.putD_dv (b : List Byte) : (s.putD b).dv = true := rfl
@[simp] theorem State.putD_offset (b : List Byte) : (s.putD b).offset = s.offset := rfl
@[simp] theorem State.putD_value (b : List Byte) : (s.putD b).value = s.value := rfl
@[simp] theorem State.putD_vv (b : List Byte) : (s.putD b).vv = s.vv := rfl
@[simp] theorem State.putD_code (b : List Byte) : (s.putD b).code = s.code := rfl
@[simp] theorem State.putD_codestr (b : List Byte) : (s.putD b).codestr = s.codestr := rfl
@[simp] theorem State.putD_cv (b : List Byte) : (s.putD b).cv = s.cv := rfl
@[simp] theorem State.putD_lasterr (b : List Byte) : (s.putD b).lasterr = s.lasterr := rfl
@[simp] theorem State.putD_ef (b : List Byte) : (s.putD b).ef = s.ef := rfl
@[simp] theorem State.putD_pending (b : List Byte) : (s.putD b).pending = s.pending := rfl
@[simp] theorem State.putD_reply (b : List Byte) : (s.putD b).reply = s.reply := rfl

/-! ### writing group V -/

@[simp] theorem State.putV_alg (o : BitVec 4) (v : Word32) : (s.putV o v).alg = s.alg := rfl
@[simp] theorem State.putV_digits (o : BitVec 4) (v : Word32) : (s.putV o v).digits = s.digits := rfl
@[simp] theorem State.putV_period (o : BitVec 4) (v : Word32) : (s.putV o v).period = s.period := rfl
@[simp] theorem State.putV_time (o : BitVec 4) (v : Word32) : (s.putV o v).time = s.time := rfl
@[simp] theorem State.putV_secret (o : BitVec 4) (v : Word32) : (s.putV o v).secret = s.secret := rfl
@[simp] theorem State.putV_slen (o : BitVec 4) (v : Word32) : (s.putV o v).slen = s.slen := rfl
@[simp] theorem State.putV_ovf (o : BitVec 4) (v : Word32) : (s.putV o v).ovf = s.ovf := rfl
@[simp] theorem State.putV_key (o : BitVec 4) (v : Word32) : (s.putV o v).key = s.key := rfl
@[simp] theorem State.putV_klen (o : BitVec 4) (v : Word32) : (s.putV o v).klen = s.klen := rfl
@[simp] theorem State.putV_kv (o : BitVec 4) (v : Word32) : (s.putV o v).kv = s.kv := rfl
@[simp] theorem State.putV_counter (o : BitVec 4) (v : Word32) : (s.putV o v).counter = s.counter := rfl
@[simp] theorem State.putV_msg (o : BitVec 4) (v : Word32) : (s.putV o v).msg = s.msg := rfl
@[simp] theorem State.putV_trem (o : BitVec 4) (v : Word32) : (s.putV o v).trem = s.trem := rfl
@[simp] theorem State.putV_mv (o : BitVec 4) (v : Word32) : (s.putV o v).mv = s.mv := rfl
@[simp] theorem State.putV_digest (o : BitVec 4) (v : Word32) : (s.putV o v).digest = s.digest := rfl
@[simp] theorem State.putV_dlen (o : BitVec 4) (v : Word32) : (s.putV o v).dlen = s.dlen := rfl
@[simp] theorem State.putV_dv (o : BitVec 4) (v : Word32) : (s.putV o v).dv = s.dv := rfl
@[simp] theorem State.putV_offset (o : BitVec 4) (v : Word32) : (s.putV o v).offset = o := rfl
@[simp] theorem State.putV_value (o : BitVec 4) (v : Word32) : (s.putV o v).value = v := rfl
@[simp] theorem State.putV_vv (o : BitVec 4) (v : Word32) : (s.putV o v).vv = true := rfl
@[simp] theorem State.putV_code (o : BitVec 4) (v : Word32) : (s.putV o v).code = s.code := rfl
@[simp] theorem State.putV_codestr (o : BitVec 4) (v : Word32) : (s.putV o v).codestr = s.codestr := rfl
@[simp] theorem State.putV_cv (o : BitVec 4) (v : Word32) : (s.putV o v).cv = s.cv := rfl
@[simp] theorem State.putV_lasterr (o : BitVec 4) (v : Word32) : (s.putV o v).lasterr = s.lasterr := rfl
@[simp] theorem State.putV_ef (o : BitVec 4) (v : Word32) : (s.putV o v).ef = s.ef := rfl
@[simp] theorem State.putV_pending (o : BitVec 4) (v : Word32) : (s.putV o v).pending = s.pending := rfl
@[simp] theorem State.putV_reply (o : BitVec 4) (v : Word32) : (s.putV o v).reply = s.reply := rfl

/-! ### writing group C -/

@[simp] theorem State.putC_alg (n : Word32) (b : List Byte) : (s.putC n b).alg = s.alg := rfl
@[simp] theorem State.putC_digits (n : Word32) (b : List Byte) : (s.putC n b).digits = s.digits := rfl
@[simp] theorem State.putC_period (n : Word32) (b : List Byte) : (s.putC n b).period = s.period := rfl
@[simp] theorem State.putC_time (n : Word32) (b : List Byte) : (s.putC n b).time = s.time := rfl
@[simp] theorem State.putC_secret (n : Word32) (b : List Byte) : (s.putC n b).secret = s.secret := rfl
@[simp] theorem State.putC_slen (n : Word32) (b : List Byte) : (s.putC n b).slen = s.slen := rfl
@[simp] theorem State.putC_ovf (n : Word32) (b : List Byte) : (s.putC n b).ovf = s.ovf := rfl
@[simp] theorem State.putC_key (n : Word32) (b : List Byte) : (s.putC n b).key = s.key := rfl
@[simp] theorem State.putC_klen (n : Word32) (b : List Byte) : (s.putC n b).klen = s.klen := rfl
@[simp] theorem State.putC_kv (n : Word32) (b : List Byte) : (s.putC n b).kv = s.kv := rfl
@[simp] theorem State.putC_counter (n : Word32) (b : List Byte) : (s.putC n b).counter = s.counter := rfl
@[simp] theorem State.putC_msg (n : Word32) (b : List Byte) : (s.putC n b).msg = s.msg := rfl
@[simp] theorem State.putC_trem (n : Word32) (b : List Byte) : (s.putC n b).trem = s.trem := rfl
@[simp] theorem State.putC_mv (n : Word32) (b : List Byte) : (s.putC n b).mv = s.mv := rfl
@[simp] theorem State.putC_digest (n : Word32) (b : List Byte) : (s.putC n b).digest = s.digest := rfl
@[simp] theorem State.putC_dlen (n : Word32) (b : List Byte) : (s.putC n b).dlen = s.dlen := rfl
@[simp] theorem State.putC_dv (n : Word32) (b : List Byte) : (s.putC n b).dv = s.dv := rfl
@[simp] theorem State.putC_offset (n : Word32) (b : List Byte) : (s.putC n b).offset = s.offset := rfl
@[simp] theorem State.putC_value (n : Word32) (b : List Byte) : (s.putC n b).value = s.value := rfl
@[simp] theorem State.putC_vv (n : Word32) (b : List Byte) : (s.putC n b).vv = s.vv := rfl
@[simp] theorem State.putC_code (n : Word32) (b : List Byte) : (s.putC n b).code = n := rfl
@[simp] theorem State.putC_codestr (n : Word32) (b : List Byte) :
    (s.putC n b).codestr = s.codestr.storeBytes Config.codeMax 0 b := rfl
@[simp] theorem State.putC_cv (n : Word32) (b : List Byte) : (s.putC n b).cv = true := rfl
@[simp] theorem State.putC_lasterr (n : Word32) (b : List Byte) : (s.putC n b).lasterr = s.lasterr := rfl
@[simp] theorem State.putC_ef (n : Word32) (b : List Byte) : (s.putC n b).ef = s.ef := rfl
@[simp] theorem State.putC_pending (n : Word32) (b : List Byte) : (s.putC n b).pending = s.pending := rfl
@[simp] theorem State.putC_reply (n : Word32) (b : List Byte) : (s.putC n b).reply = s.reply := rfl

/-! ### writing group C from a value -/

@[simp] theorem State.putDigits_alg (v : Word32) : (s.putDigits v).alg = s.alg := rfl
@[simp] theorem State.putDigits_digits (v : Word32) : (s.putDigits v).digits = s.digits := rfl
@[simp] theorem State.putDigits_period (v : Word32) : (s.putDigits v).period = s.period := rfl
@[simp] theorem State.putDigits_time (v : Word32) : (s.putDigits v).time = s.time := rfl
@[simp] theorem State.putDigits_secret (v : Word32) : (s.putDigits v).secret = s.secret := rfl
@[simp] theorem State.putDigits_slen (v : Word32) : (s.putDigits v).slen = s.slen := rfl
@[simp] theorem State.putDigits_ovf (v : Word32) : (s.putDigits v).ovf = s.ovf := rfl
@[simp] theorem State.putDigits_key (v : Word32) : (s.putDigits v).key = s.key := rfl
@[simp] theorem State.putDigits_klen (v : Word32) : (s.putDigits v).klen = s.klen := rfl
@[simp] theorem State.putDigits_kv (v : Word32) : (s.putDigits v).kv = s.kv := rfl
@[simp] theorem State.putDigits_counter (v : Word32) : (s.putDigits v).counter = s.counter := rfl
@[simp] theorem State.putDigits_msg (v : Word32) : (s.putDigits v).msg = s.msg := rfl
@[simp] theorem State.putDigits_trem (v : Word32) : (s.putDigits v).trem = s.trem := rfl
@[simp] theorem State.putDigits_mv (v : Word32) : (s.putDigits v).mv = s.mv := rfl
@[simp] theorem State.putDigits_digest (v : Word32) : (s.putDigits v).digest = s.digest := rfl
@[simp] theorem State.putDigits_dlen (v : Word32) : (s.putDigits v).dlen = s.dlen := rfl
@[simp] theorem State.putDigits_dv (v : Word32) : (s.putDigits v).dv = s.dv := rfl
@[simp] theorem State.putDigits_offset (v : Word32) : (s.putDigits v).offset = s.offset := rfl
@[simp] theorem State.putDigits_value (v : Word32) : (s.putDigits v).value = s.value := rfl
@[simp] theorem State.putDigits_vv (v : Word32) : (s.putDigits v).vv = s.vv := rfl
@[simp] theorem State.putDigits_code (v : Word32) :
    (s.putDigits v).code = BitVec.ofNat 32 (codeOf v s.digits) := rfl
@[simp] theorem State.putDigits_codestr (v : Word32) :
    (s.putDigits v).codestr = s.codestr.storeBytes Config.codeMax 0 (digitChars s.digits.toNat (codeOf v s.digits)) := rfl
@[simp] theorem State.putDigits_cv (v : Word32) : (s.putDigits v).cv = true := rfl
@[simp] theorem State.putDigits_lasterr (v : Word32) : (s.putDigits v).lasterr = s.lasterr := rfl
@[simp] theorem State.putDigits_ef (v : Word32) : (s.putDigits v).ef = s.ef := rfl
@[simp] theorem State.putDigits_pending (v : Word32) : (s.putDigits v).pending = s.pending := rfl
@[simp] theorem State.putDigits_reply (v : Word32) : (s.putDigits v).reply = s.reply := rfl

/-! ### `complete(c)` -/

@[simp] theorem State.complete_alg (c : BitVec 4) : (s.complete c).alg = s.alg := rfl
@[simp] theorem State.complete_digits (c : BitVec 4) : (s.complete c).digits = s.digits := rfl
@[simp] theorem State.complete_period (c : BitVec 4) : (s.complete c).period = s.period := rfl
@[simp] theorem State.complete_time (c : BitVec 4) : (s.complete c).time = s.time := rfl
@[simp] theorem State.complete_secret (c : BitVec 4) : (s.complete c).secret = s.secret := rfl
@[simp] theorem State.complete_slen (c : BitVec 4) : (s.complete c).slen = s.slen := rfl
@[simp] theorem State.complete_ovf (c : BitVec 4) : (s.complete c).ovf = s.ovf := rfl
@[simp] theorem State.complete_key (c : BitVec 4) : (s.complete c).key = s.key := rfl
@[simp] theorem State.complete_klen (c : BitVec 4) : (s.complete c).klen = s.klen := rfl
@[simp] theorem State.complete_kv (c : BitVec 4) : (s.complete c).kv = s.kv := rfl
@[simp] theorem State.complete_counter (c : BitVec 4) : (s.complete c).counter = s.counter := rfl
@[simp] theorem State.complete_msg (c : BitVec 4) : (s.complete c).msg = s.msg := rfl
@[simp] theorem State.complete_trem (c : BitVec 4) : (s.complete c).trem = s.trem := rfl
@[simp] theorem State.complete_mv (c : BitVec 4) : (s.complete c).mv = s.mv := rfl
@[simp] theorem State.complete_digest (c : BitVec 4) : (s.complete c).digest = s.digest := rfl
@[simp] theorem State.complete_dlen (c : BitVec 4) : (s.complete c).dlen = s.dlen := rfl
@[simp] theorem State.complete_dv (c : BitVec 4) : (s.complete c).dv = s.dv := rfl
@[simp] theorem State.complete_offset (c : BitVec 4) : (s.complete c).offset = s.offset := rfl
@[simp] theorem State.complete_value (c : BitVec 4) : (s.complete c).value = s.value := rfl
@[simp] theorem State.complete_vv (c : BitVec 4) : (s.complete c).vv = s.vv := rfl
@[simp] theorem State.complete_code (c : BitVec 4) : (s.complete c).code = s.code := rfl
@[simp] theorem State.complete_codestr (c : BitVec 4) : (s.complete c).codestr = s.codestr := rfl
@[simp] theorem State.complete_cv (c : BitVec 4) : (s.complete c).cv = s.cv := rfl
@[simp] theorem State.complete_lasterr (c : BitVec 4) : (s.complete c).lasterr = c := rfl
@[simp] theorem State.complete_ef (c : BitVec 4) : (s.complete c).ef = stickyError s.ef c := rfl
@[simp] theorem State.complete_pending (c : BitVec 4) : (s.complete c).pending = s.pending := rfl
@[simp] theorem State.complete_reply (c : BitVec 4) : (s.complete c).reply = some (.cmd c) := rfl

/-! ### `raise e` -/

@[simp] theorem State.raise_alg (e : ErrorKind) : (s.raise e).alg = s.alg := rfl
@[simp] theorem State.raise_digits (e : ErrorKind) : (s.raise e).digits = s.digits := rfl
@[simp] theorem State.raise_period (e : ErrorKind) : (s.raise e).period = s.period := rfl
@[simp] theorem State.raise_time (e : ErrorKind) : (s.raise e).time = s.time := rfl
@[simp] theorem State.raise_secret (e : ErrorKind) : (s.raise e).secret = s.secret := rfl
@[simp] theorem State.raise_slen (e : ErrorKind) : (s.raise e).slen = s.slen := rfl
@[simp] theorem State.raise_ovf (e : ErrorKind) : (s.raise e).ovf = s.ovf := rfl
@[simp] theorem State.raise_key (e : ErrorKind) : (s.raise e).key = s.key := rfl
@[simp] theorem State.raise_klen (e : ErrorKind) : (s.raise e).klen = s.klen := rfl
@[simp] theorem State.raise_kv (e : ErrorKind) : (s.raise e).kv = s.kv := rfl
@[simp] theorem State.raise_counter (e : ErrorKind) : (s.raise e).counter = s.counter := rfl
@[simp] theorem State.raise_msg (e : ErrorKind) : (s.raise e).msg = s.msg := rfl
@[simp] theorem State.raise_trem (e : ErrorKind) : (s.raise e).trem = s.trem := rfl
@[simp] theorem State.raise_mv (e : ErrorKind) : (s.raise e).mv = s.mv := rfl
@[simp] theorem State.raise_digest (e : ErrorKind) : (s.raise e).digest = s.digest := rfl
@[simp] theorem State.raise_dlen (e : ErrorKind) : (s.raise e).dlen = s.dlen := rfl
@[simp] theorem State.raise_dv (e : ErrorKind) : (s.raise e).dv = s.dv := rfl
@[simp] theorem State.raise_offset (e : ErrorKind) : (s.raise e).offset = s.offset := rfl
@[simp] theorem State.raise_value (e : ErrorKind) : (s.raise e).value = s.value := rfl
@[simp] theorem State.raise_vv (e : ErrorKind) : (s.raise e).vv = s.vv := rfl
@[simp] theorem State.raise_code (e : ErrorKind) : (s.raise e).code = s.code := rfl
@[simp] theorem State.raise_codestr (e : ErrorKind) : (s.raise e).codestr = s.codestr := rfl
@[simp] theorem State.raise_cv (e : ErrorKind) : (s.raise e).cv = s.cv := rfl
@[simp] theorem State.raise_lasterr (e : ErrorKind) : (s.raise e).lasterr = e.code := rfl
@[simp] theorem State.raise_ef (e : ErrorKind) : (s.raise e).ef = stickyError s.ef e.code := rfl
@[simp] theorem State.raise_pending (e : ErrorKind) : (s.raise e).pending = s.pending := rfl
@[simp] theorem State.raise_reply (e : ErrorKind) : (s.raise e).reply = some (.cmd e.code) := rfl

/-! ### `raise e` within `GEN` -/

@[simp] theorem State.raiseAll_alg (e : ErrorKind) : (s.raiseAll e).alg = s.alg := rfl
@[simp] theorem State.raiseAll_digits (e : ErrorKind) : (s.raiseAll e).digits = s.digits := rfl
@[simp] theorem State.raiseAll_period (e : ErrorKind) : (s.raiseAll e).period = s.period := rfl
@[simp] theorem State.raiseAll_time (e : ErrorKind) : (s.raiseAll e).time = s.time := rfl
@[simp] theorem State.raiseAll_secret (e : ErrorKind) : (s.raiseAll e).secret = s.secret := rfl
@[simp] theorem State.raiseAll_slen (e : ErrorKind) : (s.raiseAll e).slen = s.slen := rfl
@[simp] theorem State.raiseAll_ovf (e : ErrorKind) : (s.raiseAll e).ovf = s.ovf := rfl
@[simp] theorem State.raiseAll_key (e : ErrorKind) : (s.raiseAll e).key = [] := rfl
@[simp] theorem State.raiseAll_klen (e : ErrorKind) : (s.raiseAll e).klen = 0 := rfl
@[simp] theorem State.raiseAll_kv (e : ErrorKind) : (s.raiseAll e).kv = false := rfl
@[simp] theorem State.raiseAll_counter (e : ErrorKind) : (s.raiseAll e).counter = 0 := rfl
@[simp] theorem State.raiseAll_msg (e : ErrorKind) : (s.raiseAll e).msg = [] := rfl
@[simp] theorem State.raiseAll_trem (e : ErrorKind) : (s.raiseAll e).trem = 0 := rfl
@[simp] theorem State.raiseAll_mv (e : ErrorKind) : (s.raiseAll e).mv = false := rfl
@[simp] theorem State.raiseAll_digest (e : ErrorKind) : (s.raiseAll e).digest = [] := rfl
@[simp] theorem State.raiseAll_dlen (e : ErrorKind) : (s.raiseAll e).dlen = 0 := rfl
@[simp] theorem State.raiseAll_dv (e : ErrorKind) : (s.raiseAll e).dv = false := rfl
@[simp] theorem State.raiseAll_offset (e : ErrorKind) : (s.raiseAll e).offset = 0 := rfl
@[simp] theorem State.raiseAll_value (e : ErrorKind) : (s.raiseAll e).value = 0 := rfl
@[simp] theorem State.raiseAll_vv (e : ErrorKind) : (s.raiseAll e).vv = false := rfl
@[simp] theorem State.raiseAll_code (e : ErrorKind) : (s.raiseAll e).code = 0 := rfl
@[simp] theorem State.raiseAll_codestr (e : ErrorKind) : (s.raiseAll e).codestr = [] := rfl
@[simp] theorem State.raiseAll_cv (e : ErrorKind) : (s.raiseAll e).cv = false := rfl
@[simp] theorem State.raiseAll_lasterr (e : ErrorKind) : (s.raiseAll e).lasterr = e.code := rfl
@[simp] theorem State.raiseAll_ef (e : ErrorKind) : (s.raiseAll e).ef = stickyError s.ef e.code := rfl
@[simp] theorem State.raiseAll_pending (e : ErrorKind) : (s.raiseAll e).pending = s.pending := rfl
@[simp] theorem State.raiseAll_reply (e : ErrorKind) : (s.raiseAll e).reply = some (.cmd e.code) := rfl

/-! ### Reset -/

/-- The buffers list nothing after reset, so they are in canonical form (R49; log 5). -/
theorem reset_buffers_wf (b : BufName) : (State.reset.buffer b).wf = true := by
  cases b <;> rfl

end Sys2Proof.Machine
end

