-- ==== Sys2Proof/Laws/Commands.lean ====
section
/-! SUPPORT. The cases of each command: under which test it takes which end (40_buffer_commands.md to
46_generate.md). Later proofs cite these and unfold no meaning. -/

namespace Sys2Proof.Machine

variable {s : State}

/-! ### Byte strings read after an update of other buffers -/

@[simp] theorem State.clearK_secretText : s.clearK.secretText = s.secretText := rfl
@[simp] theorem State.clearK_msgBytes : s.clearK.msgBytes = s.msgBytes := rfl
@[simp] theorem State.clearM_secretText : s.clearM.secretText = s.secretText := rfl
@[simp] theorem State.clearM_keyBytes : s.clearM.keyBytes = s.keyBytes := rfl
@[simp] theorem State.clearD_secretText : s.clearD.secretText = s.secretText := rfl
@[simp] theorem State.clearD_keyBytes : s.clearD.keyBytes = s.keyBytes := rfl
@[simp] theorem State.clearD_msgBytes : s.clearD.msgBytes = s.msgBytes := rfl
@[simp] theorem State.clearV_secretText : s.clearV.secretText = s.secretText := rfl
@[simp] theorem State.clearV_keyBytes : s.clearV.keyBytes = s.keyBytes := rfl
@[simp] theorem State.clearV_msgBytes : s.clearV.msgBytes = s.msgBytes := rfl
@[simp] theorem State.clearV_digestBytes : s.clearV.digestBytes = s.digestBytes := rfl
@[simp] theorem State.clearC_secretText : s.clearC.secretText = s.secretText := rfl
@[simp] theorem State.clearC_keyBytes : s.clearC.keyBytes = s.keyBytes := rfl
@[simp] theorem State.clearC_msgBytes : s.clearC.msgBytes = s.msgBytes := rfl
@[simp] theorem State.clearC_digestBytes : s.clearC.digestBytes = s.digestBytes := rfl
@[simp] theorem State.putM_secretText (c : Word64) (r : Word32) : (s.putM c r).secretText = s.secretText :=
    rfl
@[simp] theorem State.putM_keyBytes (c : Word64) (r : Word32) : (s.putM c r).keyBytes = s.keyBytes :=
    rfl
@[simp] theorem State.putM_digestBytes (c : Word64) (r : Word32) : (s.putM c r).digestBytes = s.digestBytes :=
    rfl
@[simp] theorem State.putK_secretText (key : List Byte) : (s.putK key).secretText = s.secretText :=
    rfl
@[simp] theorem State.putK_msgBytes (key : List Byte) : (s.putK key).msgBytes = s.msgBytes := rfl
@[simp] theorem State.putK_digestBytes (key : List Byte) : (s.putK key).digestBytes = s.digestBytes :=
    rfl
@[simp] theorem State.putD_secretText (bytes : List Byte) : (s.putD bytes).secretText = s.secretText :=
    rfl
@[simp] theorem State.putD_keyBytes (bytes : List Byte) : (s.putD bytes).keyBytes = s.keyBytes :=
    rfl
@[simp] theorem State.putD_msgBytes (bytes : List Byte) : (s.putD bytes).msgBytes = s.msgBytes :=
    rfl
@[simp] theorem State.putV_secretText (o : BitVec 4) (v : Word32) : (s.putV o v).secretText = s.secretText :=
    rfl
@[simp] theorem State.putV_keyBytes (o : BitVec 4) (v : Word32) : (s.putV o v).keyBytes = s.keyBytes :=
    rfl
@[simp] theorem State.putV_msgBytes (o : BitVec 4) (v : Word32) : (s.putV o v).msgBytes = s.msgBytes :=
    rfl
@[simp] theorem State.putV_digestBytes (o : BitVec 4) (v : Word32) : (s.putV o v).digestBytes = s.digestBytes :=
    rfl
@[simp] theorem State.putDigits_secretText (v : Word32) : (s.putDigits v).secretText = s.secretText :=
    rfl
@[simp] theorem State.putDigits_keyBytes (v : Word32) : (s.putDigits v).keyBytes = s.keyBytes := rfl
@[simp] theorem State.putDigits_msgBytes (v : Word32) : (s.putDigits v).msgBytes = s.msgBytes := rfl
@[simp] theorem State.putDigits_digestBytes (v : Word32) : (s.putDigits v).digestBytes = s.digestBytes :=
    rfl
@[simp] theorem State.complete_secretText (c : BitVec 4) : (s.complete c).secretText = s.secretText :=
    rfl
@[simp] theorem State.complete_keyBytes (c : BitVec 4) : (s.complete c).keyBytes = s.keyBytes := rfl
@[simp] theorem State.complete_msgBytes (c : BitVec 4) : (s.complete c).msgBytes = s.msgBytes := rfl
@[simp] theorem State.complete_digestBytes (c : BitVec 4) : (s.complete c).digestBytes = s.digestBytes :=
    rfl
@[simp] theorem State.length_secretText : s.secretText.length = s.slen.toNat := by
  simp [State.secretText]
@[simp] theorem State.length_digestBytes : s.digestBytes.length = s.dlen.toNat := by
  simp [State.digestBytes]

/-! ### Byte strings read back from the buffer they were written to -/

theorem State.putK_keyBytes (key : List Byte) (h : key.length ≤ 160) :
    (s.clearK.putK key).keyBytes = key := by
  unfold State.keyBytes
  rw [State.putK_key, State.clearK_key, State.putK_klen, BitVec.toNat_ofNat,
    Nat.mod_eq_of_lt (by omega)]
  exact Memory.readBytes_storeBytes_nil _ h

theorem State.putM_msgBytes (counter : Word64) (trem : Word32) :
    (s.clearM.putM counter trem).msgBytes = beBytes 8 counter.toNat := by
  have h := Memory.readBytes_storeBytes_nil (cap := Config.msgLen)
    (beBytes Config.msgLen counter.toNat) (by simp)
  rw [length_beBytes] at h
  unfold State.msgBytes
  rw [State.putM_msg, State.clearM_msg]
  exact h

theorem State.putD_digestBytes (digest : List Byte) (h : digest.length ≤ 64) :
    (s.clearD.putD digest).digestBytes = digest := by
  unfold State.digestBytes
  rw [State.putD_digest, State.clearD_digest, State.putD_dlen, BitVec.toNat_ofNat,
    Nat.mod_eq_of_lt (by omega)]
  exact Memory.readBytes_storeBytes_nil _ h

/-! ### The arms -/

@[simp] theorem exec_nop : exec .nop s = execNop s := rfl
@[simp] theorem exec_clr : exec .clr s = execClr s := rfl
@[simp] theorem exec_push (imm8 : Byte) : exec (.push imm8) s = execPush imm8 s := rfl
@[simp] theorem exec_dec : exec .dec s = .next (decodeSecret false s) := rfl
@[simp] theorem exec_decu : exec .decu s = .next (decodeSecret true s) := rfl
@[simp] theorem exec_ctr : exec .ctr s = execCtr s := rfl
@[simp] theorem exec_mac : exec .mac s = execMac s := rfl
@[simp] theorem exec_trunc : exec .trunc s = execTrunc s := rfl
@[simp] theorem exec_mod : exec .mod s = execMod s := rfl
@[simp] theorem exec_gen : exec .gen s = execGen s := rfl
@[simp] theorem exec_clrerr : exec .clrerr s = execClrerr s := rfl

/-! ### `PUSH` (R133) -/

theorem execPush_full {imm8 : Byte} (h : s.slen.toNat = 256) :
    execPush imm8 s = .next (State.raise { s.clearK with ovf := true } .secretOverflow) := by
  simp [execPush, Config.secretMax, h]

theorem execPush_room {imm8 : Byte} (h : s.slen.toNat ≠ 256) :
    execPush imm8 s = .next (State.complete { s.clearK with
      secret := s.secret.storeBytes 256 s.slen.toNat [imm8], slen := s.slen + 1 } 0) := by
  simp [execPush, Config.secretMax, h]

/-! ### `DEC`, `DECU` (R160, R161) -/

theorem decodeSecret_overflow {fold : Bool} (h : s.ovf = true) :
    decodeSecret fold s = s.clearK.raise .secretOverflow := by
  simp [decodeSecret, h]

theorem decodeSecret_fail {fold : Bool} (h : s.ovf = false)
    (hd : b32decode s.secretText fold = none) :
    decodeSecret fold s = s.clearK.raise .invalidSecretEncoding := by
  simp only [decodeSecret, State.clearK_ovf, State.clearK_secretText, h, hd, Bool.false_eq_true, if_false]

theorem decodeSecret_key {fold : Bool} {key : List Byte} (h : s.ovf = false)
    (hd : b32decode s.secretText fold = some key) :
    decodeSecret fold s = (s.clearK.putK key).complete 0 := by
  simp only [decodeSecret, State.clearK_ovf, State.clearK_secretText, h, hd, Bool.false_eq_true, if_false]

/-! ### `CTR` (R182, R183) -/

theorem timeStep_none {time : Word64} {period : Word32} (h : period.toInt ≤ 0) :
    timeStep time period = none := by
  simp [timeStep, h]

theorem timeStep_some {time : Word64} {period : Word32} (h : 0 < period.toInt) :
    timeStep time period = some (BitVec.ofNat 64 (time.toNat / period.toInt.toNat),
      BitVec.ofNat 32 (period.toInt.toNat - time.toNat % period.toInt.toNat)) := by
  simp [timeStep, Int.not_le.mpr h]

theorem execCtr_none (h : timeStep s.time s.period = none) :
    execCtr s = .next (s.clearM.raise .invalidPeriod) := by
  simp only [execCtr, State.clearM_time, State.clearM_period, h]

theorem execCtr_some {c : Word64} {r : Word32} (h : timeStep s.time s.period = some (c, r)) :
    execCtr s = .next ((s.clearM.putM c r).complete 0) := by
  simp only [execCtr, State.clearM_time, State.clearM_period, h]

/-! ### `TRUNC` (R281, R285) -/

theorem execTrunc_sequence (h : s.dv = false) :
    execTrunc s = .next (s.clearV.raise .sequence) := by
  simp [execTrunc, h]

theorem execTrunc_none (h : s.dv = true) (ht : truncate s.digestBytes = none) :
    execTrunc s = .next (s.clearV.raise .truncationRange) := by
  simp only [execTrunc, State.clearV_dv, State.clearV_digestBytes, h, ht, Bool.not_true, Bool.false_eq_true, if_false]

theorem execTrunc_some {o : BitVec 4} {v : Word32} (h : s.dv = true)
    (ht : truncate s.digestBytes = some (o, v)) :
    execTrunc s = .next ((s.clearV.putV o v).complete 0) := by
  simp only [execTrunc, State.clearV_dv, State.clearV_digestBytes, h, ht, Bool.not_true, Bool.false_eq_true, if_false]

/-! ### `MOD` (R289, R290) -/

theorem digitsLegal_iff {d : BitVec 8} : digitsLegal d = true ↔ d = 6 ∨ d = 8 := by
  simp [digitsLegal]

theorem execMod_sequence (h : s.vv = false) : execMod s = .next (s.clearC.raise .sequence) := by
  simp [execMod, h]

theorem execMod_digits (h : s.vv = true) (hd : digitsLegal s.digits = false) :
    execMod s = .next (s.clearC.raise .invalidDigits) := by
  simp [execMod, h, hd]

theorem execMod_code (h : s.vv = true) (hd : digitsLegal s.digits = true) :
    execMod s = .next ((s.clearC.putDigits s.value).complete 0) := by
  simp [execMod, h, hd]

/-! ### `GEN`: its six errors in their order, and its code (R301, R305) -/

theorem isWhitespace_iff (c : Byte) : isWhitespace c = true ↔ WhitespaceCode c := by
  simp [isWhitespace, Config.whitespace, WhitespaceCode]

/-- The whitespace test, with the six codes of R303 written out. -/
theorem secretBlank_iff (text : List Byte) : secretBlank text = true ↔ ∀ c ∈ text, WhitespaceCode c := by
  simp [secretBlank, isWhitespace_iff]

/-- The first error of `GEN`, in the terms its meaning is written in. -/
theorem genError_eq (text : List Byte) (ovf : Bool) (alg : BitVec 2) (digits : BitVec 8) (period : Word32)
    (time : Word64) :
    genError text ovf alg digits period time =
      if ovf then some .secretOverflow
      else if secretBlank text then some .emptySecret
      else if ¬ (digits = 6 ∨ digits = 8) then some .invalidDigits
      else if period.toInt ≤ 0 then some .invalidPeriod
      else
        match b32decode text true with
        | none => some .invalidSecretEncoding
        | some key =>
          let digest := hmac (algorithmOf alg) key (beBytes 8 (time.toNat / period.toInt.toNat))
          if truncOffset digest + 4 > digest.length then some .truncationRange else none := by
  simp only [genError, truncOffset_eq]
  exact ite_congr rfl (fun _ => rfl) fun _ =>
    ite_congr (propext (secretBlank_iff text).symm) (fun _ => rfl) fun _ => rfl

theorem execGen_overflow (h : s.ovf = true) :
    execGen s = .next (s.clearK.clearM.raiseAll .secretOverflow) := by
  simp [execGen, h]

theorem execGen_blank (h : s.ovf = false) (hb : secretBlank s.secretText = true) :
    execGen s = .next (s.clearK.clearM.raiseAll .emptySecret) := by
  simp [execGen, h, hb]

theorem execGen_digits (h : s.ovf = false) (hb : secretBlank s.secretText = false)
    (hd : digitsLegal s.digits = false) :
    execGen s = .next (s.clearK.clearM.raiseAll .invalidDigits) := by
  simp [execGen, h, hb, hd]

theorem execGen_period (h : s.ovf = false) (hb : secretBlank s.secretText = false)
    (hd : digitsLegal s.digits = true) (hp : timeStep s.time s.period = none) :
    execGen s = .next (s.clearK.clearM.raiseAll .invalidPeriod) := by
  simp [execGen, h, hb, hd, hp]

theorem execGen_encoding {c : Word64} {r : Word32} (h : s.ovf = false)
    (hb : secretBlank s.secretText = false) (hd : digitsLegal s.digits = true)
    (hp : timeStep s.time s.period = some (c, r)) (hk : b32decode s.secretText true = none) :
    execGen s = .next ((s.clearK.clearM.putM c r).raiseAll .invalidSecretEncoding) := by
  simp only [execGen, State.clearK_ovf, State.clearM_ovf, State.clearM_secretText,
    State.clearK_secretText, State.putM_secretText, State.clearM_digits, State.clearK_digits,
    State.clearM_time, State.clearK_time, State.clearM_period, State.clearK_period, h, hb, hd, hp,
    hk, Bool.not_true, Bool.false_eq_true, if_false]

theorem execGen_window {c : Word64} {r : Word32} {key : List Byte} (h : s.ovf = false)
    (hb : secretBlank s.secretText = false) (hd : digitsLegal s.digits = true)
    (hp : timeStep s.time s.period = some (c, r)) (hk : b32decode s.secretText true = some key)
    (ht : truncate (hmac (algorithmOf s.alg) key (beBytes 8 c.toNat)) = none) :
    execGen s = .next ((((s.clearK.clearM.putM c r).putK key).putD
      (hmac (algorithmOf s.alg) key (beBytes 8 c.toNat))).raiseAll .truncationRange) := by
  simp only [execGen, State.clearK_ovf, State.clearM_ovf, State.clearM_secretText,
    State.clearK_secretText, State.putM_secretText, State.clearM_digits, State.clearK_digits,
    State.clearM_time, State.clearK_time, State.clearM_period, State.clearK_period, h, hb, hd, hp,
    hk, Bool.not_true, Bool.false_eq_true, if_false, State.putK_alg, State.putM_alg,
    State.clearM_alg, State.clearK_alg, Config.msgLen, ht]

theorem execGen_code {c : Word64} {r : Word32} {key : List Byte} {o : BitVec 4} {v : Word32}
    (h : s.ovf = false) (hb : secretBlank s.secretText = false) (hd : digitsLegal s.digits = true)
    (hp : timeStep s.time s.period = some (c, r)) (hk : b32decode s.secretText true = some key)
    (ht : truncate (hmac (algorithmOf s.alg) key (beBytes 8 c.toNat)) = some (o, v)) :
    execGen s = .next ((((((s.clearK.clearM.putM c r).putK key).putD
      (hmac (algorithmOf s.alg) key (beBytes 8 c.toNat))).putV o v).putDigits v).complete 0) := by
  simp only [execGen, State.clearK_ovf, State.clearM_ovf, State.clearM_secretText,
    State.clearK_secretText, State.putM_secretText, State.clearM_digits, State.clearK_digits,
    State.clearM_time, State.clearK_time, State.clearM_period, State.clearK_period, h, hb, hd, hp,
    hk, Bool.not_true, Bool.false_eq_true, if_false, State.putK_alg, State.putM_alg,
    State.clearM_alg, State.clearK_alg, Config.msgLen, ht]

end Sys2Proof.Machine
end

