-- ==== Sys2Proof/Laws/Decode.lean ====
section
/-! SUPPORT. Splitting a word into its fields and joining them again are inverse (30_encoding.md R96). -/

namespace Sys2Proof

@[simp] theorem splitWord_op (w : Word16) : (splitWord w).op = w.extractLsb' 12 4 := rfl
@[simp] theorem splitWord_zero (w : Word16) : (splitWord w).zero = w.extractLsb' 8 4 := rfl
@[simp] theorem splitWord_imm8 (w : Word16) : (splitWord w).imm8 = w.extractLsb' 0 8 := rfl

theorem splitWord_joinWord (f : CommandFields) : splitWord (joinWord f) = f := by
  obtain ⟨op, zero, imm8⟩ := f
  simp only [splitWord, joinWord, CommandFields.mk.injEq]
  refine ⟨?_, ?_, ?_⟩ <;> ext i hi <;>
    simp only [BitVec.getElem_extractLsb', BitVec.getLsbD_append]
  · rw [if_neg (by omega), if_neg (by omega), ← BitVec.getLsbD_eq_getElem]
    congr 1; omega
  · rw [if_neg (by omega), if_pos (by omega), ← BitVec.getLsbD_eq_getElem]
    congr 1; omega
  · rw [if_pos (by omega), Nat.zero_add, BitVec.getLsbD_eq_getElem]

theorem joinWord_splitWord (w : Word16) : joinWord (splitWord w) = w := by
  ext i hi
  simp only [joinWord, splitWord]
  rw [← BitVec.getLsbD_eq_getElem, BitVec.getLsbD_append, BitVec.getLsbD_append,
    ← BitVec.getLsbD_eq_getElem]
  split
  · rename_i h
    simp [h]
  · split
    · rename_i h h'
      simp only [BitVec.getLsbD_extractLsb', h', decide_true, Bool.true_and]
      congr 1; omega
    · rename_i h h'
      simp only [BitVec.getLsbD_extractLsb', show i - 8 - 4 < 4 by omega, decide_true,
        Bool.true_and]
      congr 1; omega

end Sys2Proof
end

