-- ==== Sys2Proof/Laws/PerInstr.lean ====
section
/-! SUPPORT. What is said of each command as syntax: the word it is encoded to splits into a legal word's fields
(30_encoding.md R96 to R98). -/

namespace Sys2Proof.Laws.EncodeWellFormed

/-- The word of a command passes the three checks of R98. -/
def Statement (i : Instr) : Prop := (splitWord (encode i)).wellFormed = true

theorem nop : Statement .nop := rfl

theorem clr : Statement .clr := rfl

theorem push (imm8 : Byte) : Statement (.push imm8) := by
  unfold Statement encode
  rw [splitWord_joinWord]
  rfl

theorem dec : Statement .dec := rfl

theorem decu : Statement .decu := rfl

theorem ctr : Statement .ctr := rfl

theorem mac : Statement .mac := rfl

theorem trunc : Statement .trunc := rfl

theorem mod : Statement .mod := rfl

theorem gen : Statement .gen := rfl

theorem clrerr : Statement .clrerr := rfl

end Sys2Proof.Laws.EncodeWellFormed
end

