-- ==== Sys2Proof/Laws/Port.lean ====
section
/-! SUPPORT. The transactions of the port, case by case (20_memory.md R63 to R69), and the step that serves them. -/

namespace Sys2Proof.Machine

/-- The indices above the last register are unmapped (30_encoding.md R93). -/
theorem registerAt_unmapped {idx : BitVec 8} (h : 0x0D ≤ idx.toNat) : registerAt idx = none := by
  revert h; revert idx; decide

theorem registerAt_mapped {idx : BitVec 8} (h : idx.toNat ≤ 0x0C) :
    (registerAt idx).isSome = true := by
  revert h; revert idx; decide

theorem regRead_mapped {idx : BitVec 8} {r : RegName} (h : registerAt idx = some r) (s : State) :
    regRead idx s = { s with reply := some (.regRead true (s.register r)) } := by
  simp only [regRead, h]

theorem regRead_unmapped {idx : BitVec 8} (h : registerAt idx = none) (s : State) :
    regRead idx s = { s with reply := some (.regRead false 0) } := by
  simp only [regRead, h]

theorem regWrite_accepted {idx : BitVec 8} {r : RegName} {data : Word64}
    (h : registerAt idx = some r) (hw : writeAccepted r data = true) (s : State) :
    regWrite idx data s = { s.setRegister r data with reply := some (.regWrite true) } := by
  simp only [regWrite, h, hw, if_true]

theorem regWrite_refused {idx : BitVec 8} {r : RegName} {data : Word64}
    (h : registerAt idx = some r) (hw : writeAccepted r data = false) (s : State) :
    regWrite idx data s = { s with reply := some (.regWrite false) } := by
  simp only [regWrite, h, hw, Bool.false_eq_true, if_false]

theorem regWrite_unmapped {idx : BitVec 8} {data : Word64} (h : registerAt idx = none)
    (s : State) : regWrite idx data s = { s with reply := some (.regWrite false) } := by
  simp only [regWrite, h]

/-- What a write accepted by a register means (R65). -/
theorem writeAccepted_iff {r : RegName} {data : Word64} :
    writeAccepted r data = true ↔ r.writable = true ∧ data.toNat < 2 ^ r.width := by
  simp [writeAccepted]

/-- What a register write can do to the state, the register's own write apart. -/
theorem regWrite_cases (idx : BitVec 8) (data : Word64) (s : State) :
    (regWrite idx data s = { s with reply := some (.regWrite false) }) ∨
    ∃ r, r.writable = true ∧
      regWrite idx data s = { s.setRegister r data with reply := some (.regWrite true) } := by
  cases h : registerAt idx with
  | none => exact .inl (regWrite_unmapped h s)
  | some r =>
    cases hw : writeAccepted r data with
    | false => exact .inl (regWrite_refused h hw s)
    | true => exact .inr ⟨r, (writeAccepted_iff.mp hw).1, regWrite_accepted h hw s⟩

/-- A register read changes only the response. -/
theorem regRead_cases (idx : BitVec 8) (s : State) :
    ∃ ok data, regRead idx s = { s with reply := some (.regRead ok data) } := by
  cases h : registerAt idx with
  | none => exact ⟨_, _, regRead_unmapped h s⟩
  | some r => exact ⟨_, _, regRead_mapped h s⟩

theorem bufRead_within {buf : BitVec 3} {b : BufName} {i : Word16} (h : bufferAt buf = some b)
    (hi : i.toNat < b.capacity) (s : State) :
    bufRead buf i s = { s with reply := some (.bufRead true ((s.buffer b).read i.toNat)) } := by
  simp only [bufRead, h, if_pos hi]

theorem bufRead_beyond {buf : BitVec 3} {b : BufName} {i : Word16} (h : bufferAt buf = some b)
    (hi : b.capacity ≤ i.toNat) (s : State) :
    bufRead buf i s = { s with reply := some (.bufRead false 0) } := by
  simp only [bufRead, h, if_neg (Nat.not_lt.mpr hi)]

theorem bufRead_unmapped {buf : BitVec 3} {i : Word16} (h : bufferAt buf = none) (s : State) :
    bufRead buf i s = { s with reply := some (.bufRead false 0) } := by
  simp only [bufRead, h]

/-- A buffer read changes only the response. -/
theorem bufRead_cases (buf : BitVec 3) (i : Word16) (s : State) :
    ∃ ok byte, bufRead buf i s = { s with reply := some (.bufRead ok byte) } := by
  unfold bufRead
  split
  · split <;> exact ⟨_, _, rfl⟩
  · exact ⟨_, _, rfl⟩

/-! ### What an accepted register write leaves (10_state.md R45) -/

variable (s : State) (r : RegName) (data : Word64)

@[simp] theorem State.setRegister_secret : (s.setRegister r data).secret = s.secret := by
  cases r <;> rfl
@[simp] theorem State.setRegister_slen : (s.setRegister r data).slen = s.slen := by
  cases r <;> rfl
@[simp] theorem State.setRegister_ovf : (s.setRegister r data).ovf = s.ovf := by
  cases r <;> rfl
@[simp] theorem State.setRegister_key : (s.setRegister r data).key = s.key := by
  cases r <;> rfl
@[simp] theorem State.setRegister_klen : (s.setRegister r data).klen = s.klen := by
  cases r <;> rfl
@[simp] theorem State.setRegister_kv : (s.setRegister r data).kv = s.kv := by
  cases r <;> rfl
@[simp] theorem State.setRegister_lasterr : (s.setRegister r data).lasterr = s.lasterr := by
  cases r <;> rfl
@[simp] theorem State.setRegister_ef : (s.setRegister r data).ef = s.ef := by
  cases r <;> rfl
@[simp] theorem State.setRegister_pending : (s.setRegister r data).pending = s.pending := by
  cases r <;> rfl
@[simp] theorem State.setRegister_reply : (s.setRegister r data).reply = s.reply := by
  cases r <;> rfl

/-! ### The step -/

theorem step_idle {s : State} (h : s.pending = []) : step s = .next s := by
  simp only [step, h]

/-- A step serves the head of the pending list. -/
theorem step_serves {s : State} {x : Transaction} {rest : List Transaction}
    (h : s.pending = x :: rest) : step s = serve x { s with pending := rest } := by
  simp only [step, h]

theorem command_legal {w : Word16} {i : Instr} (h : decode w = .ok i) (s : State) :
    command w s = exec i s := by
  simp only [command, h]

theorem command_illegal {w : Word16} {e : IllegalWord} (h : decode w = .error e) (s : State) :
    command w s = .next s.illegalCommand := by
  simp only [command, h]

/-- What a step that answers a next state did: nothing, or one transaction, whole. -/
theorem step_cases {s t : State} (h : step s = .next t) :
    (s.pending = [] ∧ t = s) ∨
    ∃ x rest, s.pending = x :: rest ∧ serve x { s with pending := rest } = .next t := by
  cases hp : s.pending with
  | nil => rw [step_idle hp] at h; exact .inl ⟨rfl, (Host.Outcome.next.inj h).symm⟩
  | cons x rest => rw [step_serves hp] at h; exact .inr ⟨x, rest, rfl, h⟩

/-! ### Runs -/

theorem run_succ (M : Host.Core) {s t : M.State} (k : Nat) (h : M.step s = .next t) :
    M.run (k + 1) s = M.run k t := by
  rw [Host.Core.run, h]

theorem core_run_zero (s : State) : core.run 0 s = .next s := rfl

/-- A run whose first step answers a next state goes on from there. -/
theorem core_run_succ {s t : State} (k : Nat) (h : step s = .next t) :
    core.run (k + 1) s = core.run k t :=
  run_succ core k h

end Sys2Proof.Machine
end

