-- ==== Sys2Proof/Tests/Slice0.lean ====
section
/-! SUPPORT. The model's own tests, with expected values from the spec's examples and tables, and a witness for the
hypotheses of every statement that has some. -/

namespace Sys2Proof.Tests

open Sys2Proof.Machine

/-! ### Helpers -/

/-- The state an outcome carries. -/
def after (o : Host.Outcome State Fault Refusal) : State :=
  match o with
  | .next t => t
  | .fault _ => State.reset
  | .refused _ => State.reset

/-- The outcome is a next state. -/
def isNext (o : Host.Outcome State Fault Refusal) : Bool :=
  match o with
  | .next _ => true
  | .fault _ => false
  | .refused _ => false

theorem next_after {o : Host.Outcome State Fault Refusal} (h : isNext o = true) :
    o = .next (after o) := by
  cases o with
  | next t => rfl
  | fault f => cases f
  | refused r => simp [isNext] at h

/-- The reset state with a text loaded. -/
def loaded (text : List Byte) : State :=
  { State.reset with
    secret := Memory.storeBytes 256 [] 0 text
    slen := BitVec.ofNat 16 text.length }

/-- The reset state with one transaction to serve. -/
def serving (x : Transaction) : State := { State.reset with pending := [x] }

/-- `MFRGG`, the text of R160. -/
def mfrgg : List Byte := [0x4D, 0x46, 0x52, 0x47, 0x47]

/-- `mfrgg`, the text of R161. -/
def mfrggLower : List Byte := [0x6D, 0x66, 0x72, 0x67, 0x67]

/-- `JBSWY3DPEHPK3PXP` (95_test_vectors.md section 2). -/
def uriSecret : List Byte :=
  [0x4A, 0x42, 0x53, 0x57, 0x59, 0x33, 0x44, 0x50, 0x45, 0x48, 0x50, 0x4B, 0x33, 0x50, 0x58, 0x50]

/-- The secret of the RFC 6238 vectors, half of it. -/
def rfcHalf : List Byte :=
  [0x47, 0x45, 0x5A, 0x44, 0x47, 0x4E, 0x42, 0x56, 0x47, 0x59, 0x33, 0x54, 0x51, 0x4F, 0x4A, 0x51]

/-- `GEZDGNBVGY3TQOJQGEZDGNBVGY3TQOJQ`, the secret of R301's example. -/
def rfcSecret : List Byte := rfcHalf ++ rfcHalf

/-- A state ready for `TRUNC`: the digest of R281's example. -/
def withDigest : State :=
  { State.reset with
    kv := true, mv := true, dv := true, dlen := 20
    digest := Memory.storeBytes 64 [] 0
      [0x75, 0xA4, 0x8A, 0x19, 0xD4, 0xCB, 0xE1, 0x00, 0x64, 0x4E, 0x8A, 0xC1, 0x39, 0x7E, 0xEA,
       0x74, 0x7A, 0x2D, 0x33, 0xAB] }

/-- The MD5 digests of R286: at `TIME = 0`, offset 15. -/
def withShortDigest : State :=
  { State.reset with
    alg := 3, kv := true, mv := true, dv := true, dlen := 16
    digest := Memory.storeBytes 64 [] 0
      [0x1C, 0x09, 0x13, 0x81, 0x3E, 0xE6, 0x6C, 0x1C, 0x88, 0x1E, 0xB6, 0x2B, 0xB5, 0xBE, 0x68,
       0xEF] }

/-- A state ready for `MOD`: the value of R289's example. -/
def withValue (digits : BitVec 8) : State :=
  { State.reset with
    digits := digits, kv := true, mv := true, dv := true, vv := true, value := 1094287082 }

/-- A state ready for `MAC`: the key of R201's example and the message 1. -/
def withKeyAndMessage : State :=
  { State.reset with
    kv := true, klen := 20, mv := true, counter := 1
    key := Memory.storeBytes 160 [] 0
      [0x31, 0x32, 0x33, 0x34, 0x35, 0x36, 0x37, 0x38, 0x39, 0x30, 0x31, 0x32, 0x33, 0x34, 0x35,
       0x36, 0x37, 0x38, 0x39, 0x30]
    msg := [(7, 0x01)] }

/-- The secret buffer full of `A`. -/
def full : State := loaded (List.replicate 256 0x41)

/-! ### Fields: the three checks refuse (R98) -/

theorem test_refuses_reserved_opcode : (CommandFields.mk 0xB 0 0).wellFormed = false := by decide

theorem test_refuses_nonzero_field : (CommandFields.mk 0x2 1 0x4A).wellFormed = false := by decide

theorem test_refuses_nonzero_immediate : (CommandFields.mk 0x3 0 1).wellFormed = false := by decide

/-! ### Decoding: each row's word, bit by bit (R96, R97) -/

theorem test_decodes_nop : decode 0b0000_0000_0000_0000 = .ok .nop := rfl
theorem test_decodes_clr : decode 0b0001_0000_0000_0000 = .ok .clr := rfl
theorem test_decodes_push : decode 0b0010_0000_0100_1010 = .ok (.push 0x4A) := rfl
theorem test_decodes_push_last : decode 0b0010_0000_1111_1111 = .ok (.push 0xFF) := rfl
theorem test_decodes_dec : decode 0b0011_0000_0000_0000 = .ok .dec := rfl
theorem test_decodes_decu : decode 0b0100_0000_0000_0000 = .ok .decu := rfl
theorem test_decodes_ctr : decode 0b0101_0000_0000_0000 = .ok .ctr := rfl
theorem test_decodes_mac : decode 0b0110_0000_0000_0000 = .ok .mac := rfl
theorem test_decodes_trunc : decode 0b0111_0000_0000_0000 = .ok .trunc := rfl
theorem test_decodes_mod : decode 0b1000_0000_0000_0000 = .ok .mod := rfl
theorem test_decodes_gen : decode 0b1001_0000_0000_0000 = .ok .gen := rfl
theorem test_decodes_clrerr : decode 0b1010_0000_0000_0000 = .ok .clrerr := rfl
theorem test_illegal_opcode : decode 0xB000 = .error .reservedOpcode := rfl
theorem test_illegal_field : decode 0x2100 = .error .nonzeroField := rfl
theorem test_illegal_immediate : decode 0x3001 = .error .nonzeroImmediate := rfl

theorem test_table_word : decodeTableWord 16 0x204A = some (.push 0x4A) := rfl

theorem test_no_longer_word : decodeTableWord 32 0x204A = none := rfl

/-- The presented word is the first one run after reset. -/
theorem test_fetch_word : (after (step (State.reset.withFetchWord 16 0x204A))).slen = 1 := by decide

/-! ### One step of each command -/

/-- R131's example. -/
theorem test_nop : (after (exec .nop { State.reset with lasterr := 3, ef := true })).lasterr = 0 ∧
    (after (exec .nop { State.reset with lasterr := 3, ef := true })).ef = true := by decide

/-- R132's example: only `MV` stays. -/
theorem test_clr : (after (exec .clr { loaded uriSecret with
      kv := true, mv := true, dv := true, vv := true, cv := true })).status = 0x0002 ∧
    (after (exec .clr (loaded uriSecret))).secret = [] := by decide

/-- R133's example. -/
theorem test_push : (after (exec (.push 0x4A) State.reset)).secret = [(0, 0x4A)] ∧
    (after (exec (.push 0x4A) State.reset)).slen = 1 := by decide

/-- R133 on a full buffer: `OVF`, `EF` and code 10 in `STATUS`. -/
theorem test_push_full : (after (exec (.push 0x42) full)).status = 0x0A60 ∧
    (after (exec (.push 0x42) full)).slen = 256 := by decide +kernel

/-- R160's example: `abc`. -/
theorem test_dec : (after (exec .dec (loaded mfrgg))).keyBytes = [0x61, 0x62, 0x63] ∧
    (after (exec .dec (loaded mfrggLower))).lasterr = 1 := by decide

/-- R161's example. -/
theorem test_decu : (after (exec .decu (loaded mfrggLower))).keyBytes = [0x61, 0x62, 0x63] := by
  decide

/-- R182's example. -/
theorem test_ctr : (after (exec .ctr { State.reset with time := 59 })).msg = [(7, 0x01)] ∧
    (after (exec .ctr { State.reset with time := 59 })).trem = 1 := by decide

/-- R188: the largest time under the largest period. -/
theorem test_ctr_largest :
    (after (exec .ctr { State.reset with time := 0xFFFFFFFFFFFFFFFF, period := 0x7FFFFFFF })).counter
      = 0x0000000200000004 ∧
    (after (exec .ctr { State.reset with time := 0xFFFFFFFFFFFFFFFF, period := 0x7FFFFFFF })).trem
      = 2147483644 := by decide

/-- R201's example. -/
theorem test_mac : (after (exec .mac withKeyAndMessage)).digest = withDigest.digest := by
  decide +kernel

/-- R281's example. -/
theorem test_trunc : (after (exec .trunc withDigest)).offset = 11 ∧
    (after (exec .trunc withDigest)).value = 1094287082 := by decide

/-- R286: the MD5 digest whose offset is 15. -/
theorem test_trunc_range : (after (exec .trunc withShortDigest)).lasterr = 11 ∧
    (after (exec .trunc withShortDigest)).dv = true := by decide

/-- R289's example, with 8 digits and with 6. -/
theorem test_mod : (after (exec .mod (withValue 8))).codeText
      = [0x39, 0x34, 0x32, 0x38, 0x37, 0x30, 0x38, 0x32] ∧
    (after (exec .mod (withValue 6))).codeText = [0x32, 0x38, 0x37, 0x30, 0x38, 0x32] := by decide

/-- R301's example: the first RFC 6238 vector. -/
theorem test_gen :
    (after (exec .gen { loaded rfcSecret with digits := 8, time := 59 })).code = 94287082 ∧
    (after (exec .gen { loaded rfcSecret with digits := 8, time := 59 })).status = 0x001F := by
  decide +kernel

/-- R310: an empty secret with `DIGITS = 7` and `PERIOD = 0` is an empty secret. -/
theorem test_gen_priority :
    (after (exec .gen { State.reset with digits := 7, period := 0 })).lasterr = 2 := by decide

/-- R134's example. -/
theorem test_clrerr : (after (exec .clrerr { State.reset with lasterr := 1, ef := true })).status
    = 0 := by decide

/-- R66: a write of 4 to `ALG` is refused; R64: a period of -1 reads as its pattern. -/
theorem test_port : (after (step (serving (.regWrite 1 4)))).reply = some (.regWrite false) ∧
    regRead 3 { State.reset with period := 0xFFFFFFFF } =
      { State.reset with
        period := 0xFFFFFFFF, reply := some (.regRead true 0x00000000FFFFFFFF) } := by decide

/-! ### Witnesses: for every statement with hypotheses, a state and operands that meet them -/

theorem witness_DecodeInvertsEncode : decode 0x20FF = .ok (.push 0xFF) ∧ encode (.push 0xFF) = 0x20FF :=
  ⟨rfl, rfl⟩

theorem witness_StepRunsDecodedCommand :
    (serving (.cmd 0x5000)).pending = .cmd 0x5000 :: [] ∧ decode 0x5000 = .ok .ctr ∧
    decodeTableWord 16 0x9000 = some .gen := ⟨rfl, rfl, rfl⟩

/-- A word for each of the three clauses. -/
theorem witness_IllegalWordRecordsIllegalCommand :
    (∃ w : Word16, (serving (.cmd w)).pending = .cmd w :: [] ∧ w.toNat / 4096 = 0xB) ∧
    (∃ w : Word16, (serving (.cmd w)).pending = .cmd w :: [] ∧ w.toNat / 256 % 16 = 1) ∧
    (∃ w : Word16, (serving (.cmd w)).pending = .cmd w :: [] ∧ w.toNat % 256 = 1 ∧
      w.toNat / 4096 = 1) :=
  ⟨⟨0xB000, by decide⟩, ⟨0x2100, by decide⟩, ⟨0x1001, by decide⟩⟩

theorem witness_EveryStepAnswersNext : State.reset.pending = [] := rfl

theorem witness_ResetGivesResetState :
    ({ full with pending := [.reset, .cmd 0] } : State).pending = .reset :: [.cmd 0] := rfl

/-- The first and the last mapped index, and the first and the last unmapped one. -/
theorem witness_RegReadAnswersRegister :
    (∀ idx : BitVec 8, (serving (.regRead idx)).pending = .regRead idx :: []) ∧
    (0x00 : BitVec 8).toNat ≤ 0x0C ∧ (0x0C : BitVec 8).toNat ≤ 0x0C ∧
    0x0D ≤ (0x0D : BitVec 8).toNat ∧ 0x0D ≤ (0xFF : BitVec 8).toNat :=
  ⟨fun _ => rfl, by decide⟩

/-- The largest value each register takes. -/
theorem witness_AcceptedWriteStoresAndClears :
    (∀ idx data, (serving (.regWrite idx data)).pending = .regWrite idx data :: []) ∧
    (3 : Word64).toNat < 2 ^ 2 ∧ (0xFF : Word64).toNat < 2 ^ 8 ∧
    (0xFFFFFFFF : Word64).toNat < 2 ^ 32 :=
  ⟨fun _ _ => rfl, by decide⟩

/-- The smallest value too wide for each register, and indices at the ends of the refused ranges. -/
theorem witness_RefusedWriteChangesNothing :
    (∀ idx data, (serving (.regWrite idx data)).pending = .regWrite idx data :: []) ∧
    2 ^ 2 ≤ (4 : Word64).toNat ∧ 2 ^ 8 ≤ (0x100 : Word64).toNat ∧
    2 ^ 32 ≤ (0x100000000 : Word64).toNat ∧
    0x0D ≤ (0x0D : BitVec 8).toNat ∧ 0x0D ≤ (0xFF : BitVec 8).toNat ∧
    (0x05 ≤ (0x05 : BitVec 8).toNat ∧ (0x0C : BitVec 8).toNat ≤ 0x0C) :=
  ⟨fun _ _ => rfl, by decide⟩

/-- Each buffer's last byte and the index after it, and the unmapped ids. -/
theorem witness_BufReadAnswersByte :
    (∀ buf i, (serving (.bufRead buf i)).pending = .bufRead buf i :: []) ∧
    (255 : Word16).toNat < 256 ∧ (159 : Word16).toNat < 160 ∧ (7 : Word16).toNat < 8 ∧
    (63 : Word16).toNat < 64 ∧ 256 ≤ (256 : Word16).toNat ∧ 160 ≤ (160 : Word16).toNat ∧
    8 ≤ (8 : Word16).toNat ∧ 64 ≤ (64 : Word16).toNat ∧ 5 ≤ (5 : BitVec 3).toNat ∧
    5 ≤ (7 : BitVec 3).toNat :=
  ⟨fun _ _ => rfl, by decide⟩

theorem witness_WrittenRegisterReadsBack :
    ({ State.reset with pending := [.regWrite 3 0xFFFFFFFF, .regRead 3] } : State).pending
      = .regWrite 3 0xFFFFFFFF :: .regRead 3 :: [] ∧
    (3 : Word64).toNat < 2 ^ 2 ∧ (0xFF : Word64).toNat < 2 ^ 8 ∧
    (0xFFFFFFFF : Word64).toNat < 2 ^ 32 :=
  ⟨rfl, by decide⟩

/-- The last free index, and the full buffer. -/
theorem witness_PushAppendsOrOverflows :
    ((loaded (List.replicate 255 0x41)).secret.wf = true ∧
      (loaded (List.replicate 255 0x41)).slen.toNat < 256) ∧
    (full.secret.wf = true ∧ full.slen.toNat = 256) := by decide +kernel

/-- The longest text that fits. -/
theorem witness_LoadFillsSecret :
    ∃ (s : State) (text : List Byte) (rest : List Transaction), text.length = 256 ∧
      s.pending = .cmd 0x1000 :: text.map (fun c => .cmd (0x2000 + c.setWidth 16)) ++ rest :=
  ⟨{ State.reset with
      pending := .cmd 0x1000 ::
        (List.replicate 256 0x41).map (fun c : Byte => .cmd (0x2000 + c.setWidth 16)) ++ [] },
    List.replicate 256 0x41, [], List.length_replicate, rfl⟩

theorem witness_OverflowLastsUntilClr :
    ∃ s t : State, s.ovf = true ∧ exec .gen s = .next t ∧ t.lasterr = 10 :=
  ⟨{ full with ovf := true }, _, by decide +kernel, next_after (by decide +kernel), by decide +kernel⟩

theorem witness_DecodeCommandsWriteKey :
    (loaded mfrgg).ovf = false ∧ (loaded mfrgg).slen.toNat ≤ 256 ∧
    b32decode (loaded mfrgg).secretText false = some [0x61, 0x62, 0x63] ∧
    b32decode (loaded mfrggLower).secretText true = some [0x61, 0x62, 0x63] := by decide

theorem witness_DecodeFailureLeavesNoKey :
    ({ full with ovf := true } : State).ovf = true ∧
    b32decode (loaded mfrggLower).secretText false = none := by decide +kernel

/-- Values at the ends of both ranges, and the codes next to the alphabet. -/
theorem witness_AlphabetValues :
    0 < 26 ∧ 25 < 26 ∧ 26 < 32 ∧ 31 < 32 ∧
    ((0x40 : Byte).toNat < 0x41 ∧ 0x37 < (0x40 : Byte).toNat) ∧
    (0x5A < (0x5B : Byte).toNat ∧ 0x37 < (0x5B : Byte).toNat) ∧
    ((0x31 : Byte).toNat < 0x41 ∧ (0x31 : Byte).toNat < 0x32) := by decide

theorem witness_DecoderOutputLength :
    b32decode mfrgg false = some [0x61, 0x62, 0x63] ∧ b32decode [0x3D, 0x41] true = some [] := by
  decide

theorem witness_DecodeFailsOnBadCharacter :
    b32decode mfrggLower false = none ∧ b32decode [0x41, 0x30] true = none := by decide

theorem witness_FoldingTouchesOnlyLowerCase :
    ∀ c ∈ mfrgg, ¬ (0x61 ≤ c.toNat ∧ c.toNat ≤ 0x7A) := by decide

theorem witness_DecoderClosedForm :
    b32decode mfrgg false = some [0x61, 0x62, 0x63] ∧ 2 < [0x61, 0x62, 0x63].length ∧ 7 ≤ 7 ∧
    b32decode mfrggLower true = some [0x61, 0x62, 0x63] := by decide

theorem witness_CtrWritesTimeStep :
    State.reset.period.toInt = (30 : Int) ∧
    ({ State.reset with period := 0x7FFFFFFF } : State).period.toInt = (2147483647 : Int) := by decide

theorem witness_CtrRejectsPeriod :
    ({ State.reset with period := 0 } : State).period = 0 ∧
    2 ^ 31 ≤ ({ State.reset with period := 0x80000000 } : State).period.toNat := by decide

theorem witness_SecondsRemainingRange :
    ∃ s t : State, exec .ctr s = .next t ∧ t.mv = true ∧ t.trem = 30 :=
  ⟨{ State.reset with time := 60 }, _, next_after (by decide), by decide, by decide⟩

theorem witness_MacWritesDigest :
    withKeyAndMessage.kv = true ∧ withKeyAndMessage.mv = true ∧
    ∀ a : BitVec 2, ({ withKeyAndMessage with alg := a } : State).kv = true := by decide

theorem witness_MacNeedsKeyAndMessage :
    State.reset.kv = false ∧ ({ withKeyAndMessage with mv := false } : State).mv = false := by decide

/-- Each algorithm, and a key of a block, one byte longer and one byte shorter, for both block sizes. -/
theorem witness_HmacKeyForms :
    (∀ alg : BitVec 2, ∃ (H : List Byte → List Byte) (B : Nat),
      (alg = 0 ∧ H = sha1 ∧ B = 64) ∨ (alg = 1 ∧ H = sha256 ∧ B = 64) ∨
        (alg = 2 ∧ H = sha512 ∧ B = 128) ∨ (alg = 3 ∧ H = md5 ∧ B = 64)) ∧
    ((List.replicate 64 (0x31 : Byte)).length ≤ 64 ∧ 64 < (List.replicate 65 (0x31 : Byte)).length ∧
      (List.replicate 63 (0x31 : Byte)).length < 64) ∧
    ((List.replicate 128 (0x31 : Byte)).length ≤ 128 ∧ 128 < (List.replicate 129 (0x31 : Byte)).length ∧
      (List.replicate 127 (0x31 : Byte)).length < 128) := by
  refine ⟨fun alg => ?_, by decide, by decide⟩
  obtain rfl | rfl | rfl | rfl : alg = 0 ∨ alg = 1 ∨ alg = 2 ∨ alg = 3 := by revert alg; decide
  · exact ⟨sha1, 64, .inl ⟨rfl, rfl, rfl⟩⟩
  · exact ⟨sha256, 64, .inr (.inl ⟨rfl, rfl, rfl⟩)⟩
  · exact ⟨sha512, 128, .inr (.inr (.inl ⟨rfl, rfl, rfl⟩))⟩
  · exact ⟨md5, 64, .inr (.inr (.inr ⟨rfl, rfl, rfl⟩))⟩

/-- The offset 11 of R281's example, and the last offset that fits a 16-byte digest. -/
theorem witness_TruncWritesWindow :
    (withDigest.dv = true ∧
      11 = (withDigest.digest.read (withDigest.dlen.toNat - 1)).toNat % 16 ∧
      11 + 4 ≤ withDigest.dlen.toNat) ∧
    ∃ s : State, s.dv = true ∧ 12 = (s.digest.read (s.dlen.toNat - 1)).toNat % 16 ∧
      12 + 4 = s.dlen.toNat :=
  ⟨by decide, { withShortDigest with digest := [(15, 0x0C)] }, by decide⟩

/-- No digest, and the first offset that does not fit a 16-byte digest. -/
theorem witness_TruncFailures :
    State.reset.dv = false ∧
    ∃ s : State, s.dv = true ∧ s.dlen.toNat = 16 ∧
      s.dlen.toNat < (s.digest.read (s.dlen.toNat - 1)).toNat % 16 + 4 ∧
      (s.digest.read (s.dlen.toNat - 1)).toNat % 16 = 13 :=
  ⟨rfl, { withShortDigest with digest := [(15, 0x0D)] }, by decide⟩

theorem witness_TruncatedValueRange :
    ∃ s t : State, exec .trunc s = .next t ∧ t.vv = true ∧ t.value = 1094287082 :=
  ⟨withDigest, _, next_after (by decide), by decide, by decide⟩

theorem witness_ModWritesDigits :
    ((withValue 6).vv = true ∧ (withValue 6).digits.toNat = 6) ∧
    ((withValue 8).vv = true ∧ (withValue 8).digits.toNat = 8) := by decide

theorem witness_ModFailures :
    State.reset.vv = false ∧
    ((withValue 7).digits.toNat ≠ 6 ∧ (withValue 7).digits.toNat ≠ 8 ∧ (withValue 7).vv = true) := by
  decide

theorem witness_SixDigitsEndEightDigits :
    ∃ t6 t8 : State, (withValue 6).vv = true ∧
      exec .mod { withValue 6 with digits := 6 } = .next t6 ∧
      exec .mod { withValue 6 with digits := 8 } = .next t8 :=
  ⟨_, _, rfl, next_after (by decide), next_after (by decide)⟩

/-- The secret of 95_test_vectors.md at `TIME = 59`: the code 996554, offset 2 and value 0x79B6650A of its table. -/
def ready : State := { loaded uriSecret with time := 59 }

theorem witness_GenWritesAllGroups :
    ∃ (s : State) (p : Nat) (key digest : List Byte) (off value : Nat),
      s.ovf = false ∧ s.slen.toNat ≤ 256 ∧ (∃ c ∈ s.secretText, ¬ WhitespaceCode c) ∧
      (s.digits = 6 ∨ s.digits = 8) ∧ s.period.toInt = (p : Int) ∧ 0 < p ∧
      b32decode s.secretText true = some key ∧
      digest = hmac (algorithmOf s.alg) key (beBytes 8 (s.time.toNat / p)) ∧
      off = (digest.getD (digest.length - 1) 0).toNat % 16 ∧ off + 4 ≤ digest.length ∧
      value = fromBe ((digest.drop off).take 4) % 2 ^ 31 ∧ value = 0x79B6650A :=
  ⟨ready, 30, [0x48, 0x65, 0x6C, 0x6C, 0x6F, 0x21, 0xDE, 0xAD, 0xBE, 0xEF],
    [0x85, 0x3F, 0x79, 0xB6, 0x65, 0x0A, 0x9E, 0x3C, 0x5A, 0x81, 0xF1, 0x79, 0xA2, 0x09, 0x25, 0x3B,
     0xCB, 0xBE, 0x74, 0x02],
    2, 0x79B6650A, by decide +kernel⟩

/-- Each of the six errors occurs, `EmptySecret` on an empty text and on the six codes of R303, and not on the codes
next to them; the last is MD5's at `TIME = 0` (R286). -/
theorem witness_GenFailureClearsAllGroups :
    genError [] true 0 6 30 0 = some .secretOverflow ∧
    genError [] false 0 6 30 0 = some .emptySecret ∧
    genError [0x09, 0x0A, 0x0B, 0x0C, 0x0D, 0x20] false 0 6 30 0 = some .emptySecret ∧
    (∀ c ∈ [0x08, 0x0E, 0x1F, 0x21, 0x85, 0xA0],
      genError [c] false 0 6 30 0 = some .invalidSecretEncoding) ∧
    genError uriSecret false 0 7 30 0 = some .invalidDigits ∧
    genError uriSecret false 0 6 0 0 = some .invalidPeriod ∧
    genError [0x41, 0x21] false 0 6 30 0 = some .invalidSecretEncoding ∧
    genError rfcSecret false 3 6 30 0 = some .truncationRange := by decide +kernel

theorem witness_GenEqualsUnitCommands :
    ∃ s t : State, s.slen.toNat ≤ 256 ∧ exec .gen s = .next t ∧ t.lasterr = 0 :=
  ⟨ready, _, by decide +kernel, next_after (by decide +kernel), by decide +kernel⟩

theorem witness_GenFailureInUnitCommands :
    (∃ s t : State, s.slen.toNat ≤ 256 ∧ exec .gen s = .next t ∧ t.lasterr = 1) ∧
    (∃ s t : State, s.slen.toNat ≤ 256 ∧ exec .gen s = .next t ∧ t.lasterr = 11) :=
  ⟨⟨loaded [0x41, 0x21], _, by decide, next_after (by decide +kernel), by decide +kernel⟩,
   ⟨{ loaded rfcSecret with alg := 3 }, _, by decide +kernel, next_after (by decide +kernel),
    by decide +kernel⟩⟩

/-- Both ends of `generate`: a string, and an error. -/
theorem witness_GenComputesGenerate :
    (ready.ovf = false ∧ ready.slen.toNat ≤ 256) ∧
    (generate uriSecret 0 6 30 59).toOption = some [0x39, 0x39, 0x36, 0x35, 0x35, 0x34] ∧
    (generate [] 0 6 30 59).toOption = none := by decide +kernel

theorem witness_HostObtainsGeneratedCode :
    ∃ s : State, uriSecret.length ≤ 256 ∧
      s.pending = .regWrite 1 ((0 : BitVec 2).setWidth 64) ::
        .regWrite 2 ((6 : BitVec 8).setWidth 64) :: .regWrite 3 ((30 : Word32).setWidth 64) ::
        .regWrite 4 59 :: .cmd 0x1000 ::
        (uriSecret.map (fun c => .cmd (0x2000 + c.setWidth 16)) ++ [.cmd 0x9000]) :=
  ⟨{ State.reset with
      pending := .regWrite 1 ((0 : BitVec 2).setWidth 64) ::
        .regWrite 2 ((6 : BitVec 8).setWidth 64) :: .regWrite 3 ((30 : Word32).setWidth 64) ::
        .regWrite 4 59 :: .cmd 0x1000 ::
        (uriSecret.map (fun c => .cmd (0x2000 + c.setWidth 16)) ++ [.cmd 0x9000]) },
    by decide, rfl⟩

/-- Two states that differ in their results and their error record. -/
theorem witness_GenDependsOnlyOnInputs :
    ∃ s s' t t' : State, s.secretText = s'.secretText ∧ s.slen = s'.slen ∧ s.ovf = s'.ovf ∧
      s.SameConfig s' ∧ exec .gen s = .next t ∧ exec .gen s' = .next t' ∧ s.lasterr ≠ s'.lasterr :=
  ⟨ready, { ready with counter := 5, mv := true, lasterr := 9, ef := true }, _, _, by decide, rfl, rfl,
    ⟨rfl, rfl, rfl, rfl⟩, next_after (by decide +kernel), next_after (by decide +kernel), by decide⟩

theorem witness_CommandsKeepInputs : ∃ s t : State, exec .mac s = .next t :=
  ⟨State.reset, _, next_after (by decide)⟩

/-- A command that completes with a code from each end of its list. -/
theorem witness_CompletionCodes :
    ∃ s t s' t' : State, exec .gen s = .next t ∧ t.lasterr = 0 ∧
      exec .gen s' = .next t' ∧ t'.lasterr = 2 :=
  ⟨ready, _, State.reset, _, next_after (by decide +kernel), by decide +kernel,
    next_after (by decide), by decide⟩

/-- `CLRERR`, another command, `Reset`, and a read. -/
theorem witness_ErrorRecordRules :
    ∀ x : Transaction, x ∈ [.cmd 0xA000, .cmd 0x6000, .reset, .regRead 0] →
      (serving x).pending = x :: [] ∧ isNext (step (serving x)) = true := by decide

theorem witness_OnlyTheirCommandsMakeGroupsValid :
    ∃ s t : State, step s = .next t ∧ s.mv = false ∧ t.mv = true :=
  ⟨serving (.cmd 0x5000), _, next_after (by decide), by decide, by decide⟩

/-- The reset state meets the invariant, clause by clause. -/
theorem reset_flags : State.reset.FlagsConsistent where
  digest := by decide
  value := by decide
  code := by decide
  key := by decide
  digits := by decide
  period := by decide

theorem witness_StepKeepsFlagRules : ∃ s t : State, s.FlagsConsistent ∧ step s = .next t :=
  ⟨State.reset, _, reset_flags, rfl⟩

theorem witness_StepKeepsBuffersCanonical : ∃ s t : State, s.Canonical ∧ step s = .next t :=
  ⟨State.reset, _, fun b => by cases b <;> decide, rfl⟩

theorem reset_zeros : State.reset.ZeroBeyond where
  secret := fun _ _ _ => rfl
  key := fun _ _ _ => rfl
  klen := fun _ => rfl
  groupM := fun _ => ⟨rfl, fun _ _ => rfl, rfl⟩
  digest := fun _ _ _ => rfl
  dlen := fun _ => rfl
  groupV := fun _ => ⟨rfl, rfl⟩
  groupC := fun _ => ⟨rfl, fun _ _ => rfl⟩
  codestr := nofun

/-- An index at the length of each of the four buffers whose length may lie below the capacity, and the two buffers
of groups that are not valid. -/
theorem witness_BufReadAnswersByte_beyond_length :
    State.reset.ZeroBeyond ∧ State.reset.slen.toNat ≤ (0 : Word16).toNat ∧
    State.reset.klen.toNat ≤ (0 : Word16).toNat ∧ State.reset.dlen.toNat ≤ (0 : Word16).toNat ∧
    State.reset.digits.toNat ≤ (6 : Word16).toNat ∧ State.reset.mv = false ∧ State.reset.cv = false :=
  ⟨reset_zeros, by decide⟩

theorem witness_StepKeepsZeroContents :
    ∃ s t : State, s.Bounded ∧ s.ZeroBeyond ∧ step s = .next t :=
  ⟨State.reset, _, ⟨by decide, by decide, by decide⟩, reset_zeros, rfl⟩

/-- The invariant holds of a state that is about to compute. -/
theorem witness_StepKeepsInvariant : ∃ s t : State, s.Inv ∧ step s = .next t ∧ t.mv = true :=
  ⟨serving (.cmd 0x5000), _,
    ⟨⟨by decide, by decide, by decide⟩, fun b => by cases b <;> decide,
      ⟨reset_flags.1, reset_flags.2, reset_flags.3, reset_flags.4, reset_flags.5, reset_flags.6⟩,
      ⟨reset_zeros.1, reset_zeros.2, reset_zeros.3, reset_zeros.4, reset_zeros.5, reset_zeros.6,
        reset_zeros.7, reset_zeros.8, reset_zeros.9⟩,
      ⟨nofun, nofun, nofun, nofun, nofun⟩⟩,
    next_after (by decide), by decide⟩

end Sys2Proof.Tests
end

section
/-! SUPPORT. What each command can do, said once: every command but `CLRERR` works out a state and a completion
code and then completes (60_exceptions.md R326). The claims about commands and steps follow from this relation. -/

namespace Sys2Proof.Machine

/-! ### A legal word is its command's word (30_encoding.md R97, R98) -/

/-- A legal word's fields are those of the command it names. -/
theorem fields_eq_of_commandOf {f : CommandFields} {i : Instr} (hz : f.zeroClear = true)
    (hi : f.immAllowed = true) (h : commandOf f = .ok i) : i.fields = f := by
  obtain ⟨op, zero, imm8⟩ := f
  simp only [CommandFields.zeroClear, beq_iff_eq] at hz
  simp only [CommandFields.immAllowed, Bool.or_eq_true, beq_iff_eq] at hi
  subst hz
  unfold commandOf at h
  split at h <;> cases h
  all_goals simp_all [Instr.fields, ← BitVec.toNat_inj]

theorem eq_encode_of_decode {w : Word16} {i : Instr} (h : decode w = .ok i) : w = encode i := by
  simp only [decode] at h
  split at h
  · cases h
  split at h
  · cases h
  split at h
  · cases h
  rename_i hz hi
  rw [encode, fields_eq_of_commandOf (by simpa using hz) (by simpa using hi) h, joinWord_splitWord]

/-! ### The length of a decoded key (R9, R157) -/

/-- The bytes a decode emits hold no more bits than there were: 5 for each character, and those carried in. -/
theorem length_b32pack {acc nbits : Nat} {chars key : List Byte}
    (h : b32pack acc nbits chars = some key) : 8 * key.length ≤ nbits + 5 * chars.length := by
  induction chars generalizing acc nbits key with
  | nil => cases h; simp
  | cons c rest ih =>
    rw [List.length_cons]
    by_cases hp : c = padChar
    · subst hp
      have := ih ((b32pack_padChar acc nbits rest).symm.trans h)
      omega
    cases hv : b32val c with
    | none => simp [b32pack_bad acc nbits rest hp hv] at h
    | some v =>
      rw [b32pack_value acc nbits rest hv] at h
      split at h
      · obtain ⟨tail, htail, rfl⟩ := Option.map_eq_some_iff.mp h
        have := ih htail
        rw [List.length_cons]
        omega
      · have := ih h
        omega

theorem length_b32decode {chars key : List Byte} {fold : Bool} (h : b32decode chars fold = some key) :
    8 * key.length ≤ 5 * chars.length := by
  cases fold with
  | false => simpa using length_b32pack h
  | true => simpa using length_b32pack h

/-- A key decoded from a secret within its bound fits the key buffer. -/
theorem length_key_le {s : State} {fold : Bool} {key : List Byte}
    (h : b32decode s.secretText fold = some key) (hb : s.slen.toNat ≤ 256) : key.length ≤ 160 := by
  have := length_b32decode h
  rw [State.length_secretText] at this
  omega

/-! ### What a command can do -/

/-- `DECU` with folding, `DEC` without (R160, R161). -/
def decodeCommand (fold : Bool) : Instr := if fold then .decu else .dec

/-- On `s` the command works out the state in the third place and completes with the code in the fourth: one
constructor for each end of each command but `CLRERR`, with the tests that lead to it. -/
inductive Computes (s : State) : Instr → State → BitVec 4 → Prop
  | nop : Computes s .nop s 0
  | clr : Computes s .clr { s.clearK with secret := [], slen := 0, ovf := false } 0
  | pushFull (imm8 : Byte) (hfull : s.slen.toNat = 256) :
      Computes s (.push imm8) { s.clearK with ovf := true } ErrorKind.secretOverflow.code
  | pushRoom (imm8 : Byte) (hroom : s.slen.toNat ≠ 256) :
      Computes s (.push imm8) { s.clearK with
        secret := s.secret.storeBytes 256 s.slen.toNat [imm8], slen := s.slen + 1 } 0
  | decodeOverflow (fold : Bool) (hovf : s.ovf = true) :
      Computes s (decodeCommand fold) s.clearK ErrorKind.secretOverflow.code
  | decodeFail (fold : Bool) (hovf : s.ovf = false) (hkey : b32decode s.secretText fold = none) :
      Computes s (decodeCommand fold) s.clearK ErrorKind.invalidSecretEncoding.code
  | decodeKey (fold : Bool) (key : List Byte) (hovf : s.ovf = false)
      (hkey : b32decode s.secretText fold = some key) :
      Computes s (decodeCommand fold) (s.clearK.putK key) 0
  | ctrPeriod (htime : timeStep s.time s.period = none) :
      Computes s .ctr s.clearM ErrorKind.invalidPeriod.code
  | ctr (c : Word64) (r : Word32) (htime : timeStep s.time s.period = some (c, r)) :
      Computes s .ctr (s.clearM.putM c r) 0
  | macSequence (hinput : s.kv = false ∨ s.mv = false) :
      Computes s .mac s.clearD ErrorKind.sequence.code
  | mac (hk : s.kv = true) (hm : s.mv = true) :
      Computes s .mac (s.clearD.putD (hmac (algorithmOf s.alg) s.keyBytes s.msgBytes)) 0
  | truncSequence (hd : s.dv = false) : Computes s .trunc s.clearV ErrorKind.sequence.code
  | truncRange (hd : s.dv = true) (hwindow : truncate s.digestBytes = none) :
      Computes s .trunc s.clearV ErrorKind.truncationRange.code
  | trunc (o : BitVec 4) (v : Word32) (hd : s.dv = true)
      (hwindow : truncate s.digestBytes = some (o, v)) : Computes s .trunc (s.clearV.putV o v) 0
  | modSequence (hv : s.vv = false) : Computes s .mod s.clearC ErrorKind.sequence.code
  | modDigits (hv : s.vv = true) (hdigits : digitsLegal s.digits = false) :
      Computes s .mod s.clearC ErrorKind.invalidDigits.code
  | mod (hv : s.vv = true) (hdigits : digitsLegal s.digits = true) :
      Computes s .mod (s.clearC.putDigits s.value) 0
  | genFail (e : ErrorKind)
      (herror : genError s.secretText s.ovf s.alg s.digits s.period s.time = some e) :
      Computes s .gen s.clearK.clearM e.code
  | gen (c : Word64) (r : Word32) (key : List Byte) (o : BitVec 4) (v : Word32)
      (hovf : s.ovf = false) (hblank : secretBlank s.secretText = false)
      (hdigits : digitsLegal s.digits = true) (htime : timeStep s.time s.period = some (c, r))
      (hkey : b32decode s.secretText true = some key)
      (hwindow : truncate (hmac (algorithmOf s.alg) key (beBytes 8 c.toNat)) = some (o, v)) :
      Computes s .gen (((((s.clearK.clearM.putM c r).putK key).putD
        (hmac (algorithmOf s.alg) key (beBytes 8 c.toNat))).putV o v).putDigits v) 0

/-- The command completes with what it works out. -/
def Completes (i : Instr) (s : State) : Prop :=
  ∃ u c, Computes s i u c ∧ exec i s = .next (u.complete c)

variable {s : State}

theorem exec_decodeCommand (fold : Bool) :
    exec (decodeCommand fold) s = .next (decodeSecret fold s) := by
  cases fold <;> rfl

theorem completes_push (imm8 : Byte) : Completes (.push imm8) s := by
  by_cases h : s.slen.toNat = 256
  · exact ⟨_, _, .pushFull imm8 h, execPush_full h⟩
  · exact ⟨_, _, .pushRoom imm8 h, execPush_room h⟩

theorem completes_decodeCommand (fold : Bool) : Completes (decodeCommand fold) s := by
  unfold Completes
  rw [exec_decodeCommand]
  cases h : s.ovf with
  | true => exact ⟨_, _, .decodeOverflow fold h, congrArg _ (decodeSecret_overflow h)⟩
  | false =>
    cases hk : b32decode s.secretText fold with
    | none => exact ⟨_, _, .decodeFail fold h hk, congrArg _ (decodeSecret_fail h hk)⟩
    | some key => exact ⟨_, _, .decodeKey fold key h hk, congrArg _ (decodeSecret_key h hk)⟩

theorem completes_ctr : Completes .ctr s := by
  cases h : timeStep s.time s.period with
  | none => exact ⟨_, _, .ctrPeriod h, execCtr_none h⟩
  | some m => exact ⟨_, _, .ctr m.1 m.2 h, execCtr_some h⟩

theorem completes_mac : Completes .mac s := by
  by_cases h : s.kv = false ∨ s.mv = false
  · exact ⟨_, _, .macSequence h, execMac_sequence h⟩
  · simp only [not_or, Bool.not_eq_false] at h
    exact ⟨_, _, .mac h.1 h.2, execMac_valid h.1 h.2⟩

theorem completes_trunc : Completes .trunc s := by
  cases h : s.dv with
  | false => exact ⟨_, _, .truncSequence h, execTrunc_sequence h⟩
  | true =>
    cases hw : truncate s.digestBytes with
    | none => exact ⟨_, _, .truncRange h hw, execTrunc_none h hw⟩
    | some v => exact ⟨_, _, .trunc v.1 v.2 h hw, execTrunc_some h hw⟩

theorem completes_mod : Completes .mod s := by
  cases h : s.vv with
  | false => exact ⟨_, _, .modSequence h, execMod_sequence h⟩
  | true =>
    cases hd : digitsLegal s.digits with
    | false => exact ⟨_, _, .modDigits h hd, execMod_digits h hd⟩
    | true => exact ⟨_, _, .mod h hd, execMod_code h hd⟩

/-- The counter is below 2^64, so its register holds it whole. -/
theorem timeStep_eq_some {time : Word64} {period : Word32} {c : Word64} {r : Word32}
    (h : timeStep time period = some (c, r)) :
    0 < period.toInt ∧ c.toNat = time.toNat / period.toInt.toNat ∧
      r.toNat = period.toInt.toNat - time.toNat % period.toInt.toNat := by
  by_cases hp : 0 < period.toInt
  · rw [timeStep_some hp] at h
    cases h
    have := Nat.div_le_self time.toNat period.toInt.toNat
    have := BitVec.toInt_lt (x := period)
    refine ⟨hp, ?_, ?_⟩ <;> rw [BitVec.toNat_ofNat, Nat.mod_eq_of_lt (by omega)]
  · rw [timeStep_none (Int.not_lt.mp hp)] at h
    cases h

theorem timeStep_eq_none {time : Word64} {period : Word32} (h : timeStep time period = none) :
    period.toInt ≤ 0 := by
  refine Int.not_lt.mp fun hp => ?_
  rw [timeStep_some hp] at h
  cases h

/-- Where the four tests of `GEN` before the decode pass, only the decode and the window can fail (R305). -/
theorem genError_of_inputs {c : Word64} {r : Word32} (h : s.ovf = false)
    (hb : secretBlank s.secretText = false) (hd : digitsLegal s.digits = true)
    (ht : timeStep s.time s.period = some (c, r)) :
    genError s.secretText s.ovf s.alg s.digits s.period s.time =
      (b32decode s.secretText true).elim (some .invalidSecretEncoding) fun key =>
        if truncate (hmac (algorithmOf s.alg) key (beBytes 8 c.toNat)) = none
        then some .truncationRange else none := by
  obtain ⟨hp, hc, -⟩ := timeStep_eq_some ht
  rw [genError_eq]
  simp only [h, hb, digitsLegal_iff.mp hd, Int.not_le.mpr hp, Bool.false_eq_true, if_false,
    not_true_eq_false, truncate_eq_none, hc]
  cases b32decode s.secretText true with
  | none => rfl
  | some key => rfl

/-! A failing `GEN` clears what it had written so far (R306). -/

theorem clearK_putD (digest : List Byte) : (s.putD digest).clearK = s.clearK := rfl

theorem clearK_putK (key : List Byte) : (s.putK key).clearK = s.clearK := rfl

theorem clearK_clearM_putM (c : Word64) (r : Word32) :
    (s.putM c r).clearK.clearM = s.clearK.clearM := rfl

theorem clearK_clearM_idem : s.clearK.clearM.clearK.clearM = s.clearK.clearM := rfl

theorem raiseAll_putM (c : Word64) (r : Word32) (e : ErrorKind) :
    (s.clearK.clearM.putM c r).raiseAll e = s.clearK.clearM.complete e.code := by
  rw [State.raiseAll, clearK_clearM_putM, clearK_clearM_idem, State.raise]

theorem raiseAll_putD (c : Word64) (r : Word32) (key digest : List Byte) (e : ErrorKind) :
    (((s.clearK.clearM.putM c r).putK key).putD digest).raiseAll e =
      s.clearK.clearM.complete e.code := by
  rw [State.raiseAll, clearK_putD, clearK_putK, ← State.raiseAll, raiseAll_putM]

theorem completes_gen : Completes .gen s := by
  cases h : s.ovf with
  | true =>
    exact ⟨_, _, .genFail .secretOverflow (by simp [genError_eq, h]), execGen_overflow h⟩
  | false =>
  cases hb : secretBlank s.secretText with
  | true => exact ⟨_, _, .genFail .emptySecret (by simp [genError_eq, h, hb]), execGen_blank h hb⟩
  | false =>
  cases hd : digitsLegal s.digits with
  | false =>
    have hd' : ¬ (s.digits = 6 ∨ s.digits = 8) := fun hl => by simp [digitsLegal_iff.mpr hl] at hd
    exact ⟨_, _, .genFail .invalidDigits (by simp only [genError_eq, h, hb, hd']; rfl),
      execGen_digits h hb hd⟩
  | true =>
  cases ht : timeStep s.time s.period with
  | none =>
    refine ⟨_, _, .genFail .invalidPeriod ?_, execGen_period h hb hd ht⟩
    simp only [genError_eq, h, hb, digitsLegal_iff.mp hd, timeStep_eq_none ht]
    rfl
  | some m =>
  obtain ⟨c, r⟩ := m
  have herror := genError_of_inputs h hb hd ht
  cases hk : b32decode s.secretText true with
  | none =>
    exact ⟨_, _, .genFail .invalidSecretEncoding (by rw [herror, hk, Option.elim_none]),
      (execGen_encoding h hb hd ht hk).trans (congrArg _ (raiseAll_putM ..))⟩
  | some key =>
  rw [hk, Option.elim_some] at herror
  cases hw : truncate (hmac (algorithmOf s.alg) key (beBytes 8 c.toNat)) with
  | none =>
    exact ⟨_, _, .genFail .truncationRange (herror.trans (if_pos hw)),
      (execGen_window h hb hd ht hk hw).trans (congrArg _ (raiseAll_putD ..))⟩
  | some w =>
    obtain ⟨o, v⟩ := w
    exact ⟨_, _, .gen c r key o v h hb hd ht hk hw, execGen_code h hb hd ht hk hw⟩

/-- Every command but `CLRERR` completes. -/
theorem completes_of_ne_clrerr {i : Instr} (h : i ≠ .clrerr) : Completes i s := by
  cases i with
  | nop => exact ⟨_, _, .nop, rfl⟩
  | clr => exact ⟨_, _, .clr, rfl⟩
  | push imm8 => exact completes_push imm8
  | dec => exact completes_decodeCommand false
  | decu => exact completes_decodeCommand true
  | ctr => exact completes_ctr
  | mac => exact completes_mac
  | trunc => exact completes_trunc
  | mod => exact completes_mod
  | gen => exact completes_gen
  | clrerr => exact absurd rfl h

/-- What a command that answers a next state did. -/
theorem exec_cases {i : Instr} {t : State} (h : exec i s = .next t) :
    (i = .clrerr ∧ t = { s with ef := false, lasterr := 0, reply := some (.cmd 0) }) ∨
    (i ≠ .clrerr ∧ ∃ u c, Computes s i u c ∧ t = u.complete c) := by
  by_cases hi : i = .clrerr
  · subst hi
    exact .inl ⟨rfl, (Host.Outcome.next.inj h).symm⟩
  · obtain ⟨u, c, hu, he⟩ := completes_of_ne_clrerr (s := s) hi
    exact .inr ⟨hi, u, c, hu, Host.Outcome.next.inj (h.symm.trans he)⟩

end Sys2Proof.Machine
end

section
/-! SUPPORT. The claims about what commands leave and record (10_state.md R27, R35, R40, R50). -/

namespace Sys2Proof.Machine

variable {s t u : State} {i : Instr} {c : BitVec 4}

/-! ### The configuration and the secret (R50) -/

theorem Computes.sameConfig (h : Computes s i u c) : s.SameConfig u := by
  cases h <;> constructor <;> simp

/-- Only `CLR` and `PUSH` write the secret. -/
theorem Computes.sameSecret (h : Computes s i u c) (hclr : i ≠ .clr) (hpush : ∀ b, i ≠ .push b) :
    s.SameSecret u := by
  cases h
  case clr => exact absurd rfl hclr
  case pushFull b _ => exact absurd rfl (hpush b)
  case pushRoom b _ => exact absurd rfl (hpush b)
  all_goals constructor <;> simp

theorem exec_sameConfig (h : exec i s = .next t) : s.SameConfig t := by
  obtain ⟨-, rfl⟩ | ⟨-, u, c, hu, rfl⟩ := exec_cases h
  · exact ⟨rfl, rfl, rfl, rfl⟩
  · obtain ⟨halg, hdigits, hperiod, htime⟩ := hu.sameConfig
    exact ⟨halg, hdigits, hperiod, htime⟩

theorem exec_sameSecret (h : exec i s = .next t) (hclr : i ≠ .clr) (hpush : ∀ b, i ≠ .push b) :
    s.SameSecret t := by
  obtain ⟨-, rfl⟩ | ⟨-, u, c, hu, rfl⟩ := exec_cases h
  · exact ⟨fun _ => rfl, rfl, rfl⟩
  · obtain ⟨hbytes, hslen, hovf⟩ := hu.sameSecret hclr hpush
    exact ⟨hbytes, hslen, hovf⟩

/-- Settles O52: each command leaves the configuration, and all but `CLR` and `PUSH` the secret. -/
theorem commandsKeepInputs : Obligations.CommandsKeepInputs := by
  intro i s t h
  refine ⟨exec_sameConfig h, ?_⟩
  by_cases hclr : i = .clr
  · exact .inl hclr
  by_cases hpush : ∃ b, i = .push b
  · exact .inr (.inl hpush)
  · exact .inr (.inr (exec_sameSecret h hclr (not_exists.mp hpush)))

/-! ### The overflow flag (R27) -/

/-- `PUSH` either sets `OVF` or leaves it. -/
theorem execPush_ovf {imm8 : Byte} (hovf : s.ovf = true) (h : execPush imm8 s = .next t) :
    t.ovf = true := by
  by_cases hfull : s.slen.toNat = 256
  · rw [execPush_full hfull] at h
    cases h
    rfl
  · rw [execPush_room hfull] at h
    cases h
    exact hovf

/-- With `OVF` set `DEC`, `DECU` and `GEN` complete with `SecretOverflow`. -/
theorem overflow_lasterr (hovf : s.ovf = true) (h : exec i s = .next t)
    (hi : i = .dec ∨ i = .decu ∨ i = .gen) : t.lasterr = 10 := by
  obtain rfl | rfl | rfl := hi
  · rw [exec_dec, decodeSecret_overflow hovf] at h
    cases h
    rfl
  · rw [exec_decu, decodeSecret_overflow hovf] at h
    cases h
    rfl
  · rw [exec_gen, execGen_overflow hovf] at h
    cases h
    rfl

/-- Settles O20: only `CLR` and `PUSH` write the secret's flag, and `PUSH` never clears it. -/
theorem overflowLastsUntilClr : Obligations.OverflowLastsUntilClr := by
  intro i s t hovf h
  refine ⟨?_, overflow_lasterr hovf h⟩
  obtain rfl | ⟨b, rfl⟩ | hsame := (commandsKeepInputs i s t h).2
  · exact .inl rfl
  · exact .inr (execPush_ovf hovf h)
  · exact .inr (hsame.ovf.trans hovf)

/-! ### The error record (R35) -/

theorem Computes.ef (h : Computes s i u c) : u.ef = s.ef := by cases h <;> simp

/-- A command's response is the code it records; `EF` is sticky but for `CLRERR`. -/
theorem exec_errorRecord (h : exec i s = .next t) :
    t.reply = some (.cmd t.lasterr) ∧ (i = .clrerr → t.ef = false) ∧
      (i ≠ .clrerr → t.ef = (s.ef || t.lasterr != 0)) := by
  obtain ⟨hi, rfl⟩ | ⟨hi, u, c, hu, rfl⟩ := exec_cases h
  · exact ⟨rfl, fun _ => rfl, fun hne => absurd hi hne⟩
  · exact ⟨rfl, fun he => absurd he hi, fun _ => by rw [State.complete_ef, hu.ef]; rfl⟩

theorem decode_eq_clrerr_iff {w : Word16} : decode w = .ok .clrerr ↔ w = 0xA000 :=
  ⟨eq_encode_of_decode, fun h => h ▸ rfl⟩

/-- The same for a command word; an illegal one is not `CLRERR`'s. -/
theorem command_errorRecord {w : Word16} (h : command w s = .next t) :
    t.reply = some (.cmd t.lasterr) ∧ (w = 0xA000 → t.ef = false) ∧
      (w ≠ 0xA000 → t.ef = (s.ef || t.lasterr != 0)) := by
  rw [← decode_eq_clrerr_iff, ne_eq, ← decode_eq_clrerr_iff]
  cases hd : decode w with
  | ok i =>
    rw [command_legal hd] at h
    obtain ⟨hreply, hclr, hne⟩ := exec_errorRecord h
    exact ⟨hreply, fun hi => hclr (Except.ok.inj hi), fun hi => hne fun he => hi (congrArg _ he)⟩
  | error e =>
    rw [command_illegal hd] at h
    cases h
    exact ⟨rfl, nofun, fun _ => rfl⟩

theorem regWrite_sameErrors (idx : BitVec 8) (data : Word64) (s : State) :
    s.SameErrors (regWrite idx data s) := by
  obtain h | ⟨r, -, h⟩ := regWrite_cases idx data s
  · exact h ▸ ⟨rfl, rfl⟩
  · exact h ▸ ⟨s.setRegister_lasterr r data, s.setRegister_ef r data⟩

/-- Settles O55, by the transaction. -/
theorem errorRecordRules : Obligations.ErrorRecordRules := by
  intro s t x rest hp h
  rw [step_serves hp] at h
  cases x with
  | cmd w => exact command_errorRecord (s := { s with pending := rest }) h
  | reset => cases h; exact ⟨rfl, rfl⟩
  | regRead idx =>
    cases h
    obtain ⟨ok, data, heq⟩ := regRead_cases idx { s with pending := rest }
    exact heq ▸ ⟨rfl, rfl⟩
  | regWrite idx data =>
    cases h
    obtain ⟨hlasterr, hef⟩ := regWrite_sameErrors idx data { s with pending := rest }
    exact ⟨hlasterr, hef⟩
  | bufRead buf i =>
    cases h
    obtain ⟨ok, byte, heq⟩ := bufRead_cases buf i { s with pending := rest }
    exact heq ▸ ⟨rfl, rfl⟩

/-! ### The valid flags (R40) -/

/-- No group is valid in `t` that is not valid in `s`. -/
structure State.NoNewGroup (s t : State) : Prop where
  kv : t.kv = true → s.kv = true
  mv : t.mv = true → s.mv = true
  dv : t.dv = true → s.dv = true
  vv : t.vv = true → s.vv = true
  cv : t.cv = true → s.cv = true

/-- A group valid in `t` and not in `s` is one that the command `i` computes (R50). -/
structure NewGroupsOf (i : Instr) (s t : State) : Prop where
  kv : t.kv = true → s.kv = true ∨ i = .dec ∨ i = .decu ∨ i = .gen
  mv : t.mv = true → s.mv = true ∨ i = .ctr ∨ i = .gen
  dv : t.dv = true → s.dv = true ∨ i = .mac ∨ i = .gen
  vv : t.vv = true → s.vv = true ∨ i = .trunc ∨ i = .gen
  cv : t.cv = true → s.cv = true ∨ i = .mod ∨ i = .gen

theorem State.NoNewGroup.newGroupsOf (h : s.NoNewGroup t) (i : Instr) : NewGroupsOf i s t :=
  ⟨fun ht => .inl (h.kv ht), fun ht => .inl (h.mv ht), fun ht => .inl (h.dv ht),
    fun ht => .inl (h.vv ht), fun ht => .inl (h.cv ht)⟩

theorem decodeCommand_eq (fold : Bool) : decodeCommand fold = .dec ∨ decodeCommand fold = .decu := by
  cases fold <;> decide

/-- Each of the five writes of a group is one of a command that computes it. -/
theorem Computes.newGroupsOf (h : Computes s i u c) : NewGroupsOf i s u := by
  cases h
  case decodeKey fold key _ _ =>
    exact ⟨fun _ => .inr ((decodeCommand_eq fold).imp_right .inl), .inl, nofun, nofun, nofun⟩
  case ctr => exact ⟨.inl, fun _ => .inr (.inl rfl), nofun, nofun, nofun⟩
  case mac => exact ⟨.inl, .inl, fun _ => .inr (.inl rfl), nofun, nofun⟩
  case trunc => exact ⟨.inl, .inl, .inl, fun _ => .inr (.inl rfl), nofun⟩
  case mod => exact ⟨.inl, .inl, .inl, .inl, fun _ => .inr (.inl rfl)⟩
  case gen => constructor <;> simp
  all_goals exact State.NoNewGroup.newGroupsOf (by constructor <;> simp) _

theorem exec_newGroupsOf (h : exec i s = .next t) : NewGroupsOf i s t := by
  obtain ⟨-, rfl⟩ | ⟨-, u, c, hu, rfl⟩ := exec_cases h
  · exact ⟨.inl, .inl, .inl, .inl, .inl⟩
  · obtain ⟨hkv, hmv, hdv, hvv, hcv⟩ := hu.newGroupsOf
    exact ⟨hkv, hmv, hdv, hvv, hcv⟩

theorem setRegister_noNewGroup (s : State) (r : RegName) (data : Word64) :
    s.NoNewGroup (s.setRegister r data) := by
  cases r <;> constructor <;> simp [State.setRegister]

/-- A transaction that makes a group valid presents the word of a command that computes it. -/
theorem serve_newGroups {x : Transaction} (h : serve x s = .next t) :
    s.NoNewGroup t ∨ ∃ w i, x = .cmd w ∧ w = encode i ∧ NewGroupsOf i s t := by
  have hself : ∀ reply, s.NoNewGroup { s with reply } := fun _ => ⟨id, id, id, id, id⟩
  cases x with
  | cmd w =>
    cases hd : decode w with
    | ok i =>
      exact .inr ⟨w, i, rfl, eq_encode_of_decode hd,
        exec_newGroupsOf ((command_legal hd s).symm.trans h)⟩
    | error e =>
      cases (command_illegal hd s).symm.trans h
      exact .inl ⟨id, id, id, id, id⟩
  | reset => cases h; exact .inl ⟨nofun, nofun, nofun, nofun, nofun⟩
  | regRead idx =>
    cases h
    obtain ⟨ok, data, heq⟩ := regRead_cases idx s
    exact .inl (heq ▸ hself _)
  | regWrite idx data =>
    cases h
    obtain heq | ⟨r, -, heq⟩ := regWrite_cases idx data s
    · exact .inl (heq ▸ hself _)
    · obtain ⟨hkv, hmv, hdv, hvv, hcv⟩ := setRegister_noNewGroup s r data
      exact .inl (heq ▸ ⟨hkv, hmv, hdv, hvv, hcv⟩)
  | bufRead buf i =>
    cases h
    obtain ⟨ok, byte, heq⟩ := bufRead_cases buf i s
    exact .inl (heq ▸ hself _)

/-- A step makes a group valid only by the word of a command that computes it. -/
theorem step_newGroups (h : step s = .next t) :
    s.NoNewGroup t ∨ ∃ w rest i, s.pending = .cmd w :: rest ∧ w = encode i ∧ NewGroupsOf i s t := by
  obtain ⟨-, rfl⟩ | ⟨x, rest, hp, hx⟩ := step_cases h
  · exact .inl ⟨id, id, id, id, id⟩
  · obtain ⟨hkv, hmv, hdv, hvv, hcv⟩ | ⟨w, i, rfl, hw, hkv, hmv, hdv, hvv, hcv⟩ := serve_newGroups hx
    · exact .inl ⟨hkv, hmv, hdv, hvv, hcv⟩
    · exact .inr ⟨w, rest, i, hp, hw, hkv, hmv, hdv, hvv, hcv⟩

/-- Settles O53, from the groups a step can make valid and the words of the commands that compute them. -/
theorem onlyTheirCommandsMakeGroupsValid : Obligations.OnlyTheirCommandsMakeGroupsValid := by
  intro s t h
  obtain hnone | ⟨w, rest, i, hp, rfl, hnew⟩ := step_newGroups h
  · refine ⟨fun hs ht => ?_, fun hs ht => ?_, fun hs ht => ?_, fun hs ht => ?_, fun hs ht => ?_⟩
    · simp [hnone.kv ht] at hs
    · simp [hnone.mv ht] at hs
    · simp [hnone.dv ht] at hs
    · simp [hnone.vv ht] at hs
    · simp [hnone.cv ht] at hs
  · have word : ∀ {j}, i = j → encode i = encode j := fun hj => congrArg encode hj
    refine ⟨fun hs ht => ⟨_, rest, hp, ?_⟩, fun hs ht => ⟨_, rest, hp, ?_⟩,
      fun hs ht => ⟨_, rest, hp, ?_⟩, fun hs ht => ⟨_, rest, hp, ?_⟩, fun hs ht => ⟨_, rest, hp, ?_⟩⟩
    · exact ((hnew.kv ht).resolve_left (by simp [hs])).imp word (Or.imp word word)
    · exact ((hnew.mv ht).resolve_left (by simp [hs])).imp word word
    · exact ((hnew.dv ht).resolve_left (by simp [hs])).imp word word
    · exact ((hnew.vv ht).resolve_left (by simp [hs])).imp word word
    · exact ((hnew.cv ht).resolve_left (by simp [hs])).imp word word

end Sys2Proof.Machine
end

section
/-! SUPPORT. A step as a chain of operations on the state, each with what holds where it is done. A predicate that
every operation keeps is kept by every step (`step_preserves`), so each invariant is proved operation by operation. -/

namespace Sys2Proof.Machine

/-- One operation on the state, with the guard under which commands and transactions do it: a group is written only
where it and every group computed from it are clear, an input only where every group computed from it is. -/
inductive StateOp (s : State) : State → Prop
  | clearC : StateOp s s.clearC
  | clearV : StateOp s s.clearV
  | clearD : StateOp s s.clearD
  | clearK : StateOp s s.clearK
  | clearM : StateOp s s.clearM
  /-- Group K takes a decode of the secret (R160). -/
  | putK (fold : Bool) (key : List Byte) (hovf : s.ovf = false)
      (hkey : b32decode s.secretText fold = some key) (hempty : s.key = []) (hd : s.dv = false) :
      StateOp s (s.putK key)
  /-- Group M takes the time step (R182). -/
  | putM (c : Word64) (r : Word32) (htime : timeStep s.time s.period = some (c, r))
      (hempty : s.msg = []) (hd : s.dv = false) : StateOp s (s.putM c r)
  /-- Group D takes a digest, which is the HMAC of key and message where the key fits its buffer (R201). -/
  | putD (digest : List Byte) (hk : s.kv = true) (hm : s.mv = true)
      (hlength : digest.length ≤ Config.digestMax)
      (hdigest : s.slen.toNat ≤ Config.secretMax →
        digest = hmac (algorithmOf s.alg) s.keyBytes s.msgBytes)
      (hempty : s.digest = []) (hv : s.vv = false) : StateOp s (s.putD digest)
  /-- Group V takes the truncation (R281). -/
  | putV (o : BitVec 4) (v : Word32) (hd : s.dv = true)
      (hwindow : truncate s.digestBytes = some (o, v)) (hc : s.cv = false) : StateOp s (s.putV o v)
  /-- Group C takes the code of the value (R289). -/
  | putDigits (hv : s.vv = true) (hdigits : digitsLegal s.digits = true) (hempty : s.codestr = []) :
      StateOp s (s.putDigits s.value)
  | setAlg (alg : BitVec 2) (hd : s.dv = false) : StateOp s { s with alg }
  | setDigits (digits : BitVec 8) (hc : s.cv = false) : StateOp s { s with digits }
  | setClock (period : Word32) (time : Word64) (hm : s.mv = false) : StateOp s { s with period, time }
  | emptySecret (hk : s.kv = false) : StateOp s { s with secret := [], slen := 0, ovf := false }
  | overflowSecret (hk : s.kv = false) : StateOp s { s with ovf := true }
  | appendSecret (imm8 : Byte) (hroom : s.slen.toNat ≠ 256) (hk : s.kv = false) :
      StateOp s { s with
        secret := s.secret.storeBytes 256 s.slen.toNat [imm8], slen := s.slen + 1 }
  /-- The error record and the two ends of the port, on which no invariant rests. -/
  | record (lasterr : BitVec 4) (ef : Bool) (pending : List Transaction) (reply : Option Response) :
      StateOp s { s with lasterr, ef, pending, reply }
  | reset : StateOp s (resetBlock s)

/-- Operations one after the other. -/
inductive StateOps (s : State) : State → Prop
  | refl : StateOps s s
  | tail {u t : State} (hfirst : StateOps s u) (hlast : StateOp u t) : StateOps s t

variable {s t u : State} {i : Instr} {c : BitVec 4}

theorem StateOps.single (h : StateOp s t) : StateOps s t := .tail .refl h

theorem StateOps.trans (h : StateOps s u) (h' : StateOps u t) : StateOps s t := by
  induction h' with
  | refl => exact h
  | tail _ hlast ih => exact .tail ih hlast

theorem StateOps.head (h : StateOp s u) (h' : StateOps u t) : StateOps s t :=
  (StateOps.single h).trans h'

theorem StateOps.preserves {P : State → Prop} (hop : ∀ {s t}, StateOp s t → P s → P t)
    (h : StateOps s t) (hs : P s) : P t := by
  induction h with
  | refl => exact hs
  | tail _ hlast ih => exact hop hlast ih

/-! ### Every command and every transaction is such a chain -/

/-- The two buffers `GEN` reads back hold what it has just written, so its HMAC is that of group K and group M. -/
theorem gen_digest (s : State) (q : Word64) (r : Word32) {key : List Byte} (hlength : key.length ≤ 160) :
    ((s.clearK.clearM.putM q r).putK key).keyBytes = key ∧
      ((s.clearK.clearM.putM q r).putK key).msgBytes = beBytes 8 q.toNat := by
  constructor
  · exact (State.putK_keyBytes (s := s) key hlength)
  · rw [State.putK_msgBytes, State.putM_msgBytes]

/-- From a digest on, the last two groups of `GEN` (R301). -/
theorem putV_putDigits_ops {o : BitVec 4} {v : Word32} (hd : s.dv = true) (hc : s.cv = false)
    (hempty : s.codestr = []) (hdigits : digitsLegal s.digits = true)
    (hwindow : truncate s.digestBytes = some (o, v)) : StateOps s ((s.putV o v).putDigits v) :=
  .head (.putV o v hd hwindow hc) (.single (.putDigits rfl hdigits hempty))

/-- The chain of `GEN` (R301). -/
theorem gen_ops {q : Word64} {r : Word32} {key : List Byte} {o : BitVec 4} {v : Word32}
    (hovf : s.ovf = false) (hdigits : digitsLegal s.digits = true)
    (htime : timeStep s.time s.period = some (q, r)) (hkey : b32decode s.secretText true = some key)
    (hwindow : truncate (hmac (algorithmOf s.alg) key (beBytes 8 q.toNat)) = some (o, v)) :
    StateOps s (((((s.clearK.clearM.putM q r).putK key).putD
      (hmac (algorithmOf s.alg) key (beBytes 8 q.toNat))).putV o v).putDigits v) := by
  have hlength : (hmac (algorithmOf s.alg) key (beBytes 8 q.toNat)).length ≤ Config.digestMax := by
    rw [length_hmac]
    exact Algorithm.digestLength_le _
  generalize hdigest : hmac (algorithmOf s.alg) key (beBytes 8 q.toNat) = digest at *
  have hK : StateOps s ((s.clearK.clearM.putM q r).putK key) :=
    .head .clearK <| .head .clearM <| .head (.putM q r htime rfl rfl) <|
      .single (.putK true key hovf hkey rfl rfl)
  have hD : StateOps s (((s.clearK.clearM.putM q r).putK key).putD digest) := by
    refine .tail hK (.putD digest rfl rfl hlength (fun hb => ?_) rfl rfl)
    obtain ⟨hkeyBytes, hmsgBytes⟩ := gen_digest s q r (length_key_le hkey hb)
    rw [hkeyBytes, hmsgBytes]
    exact hdigest.symm
  have hbytes : (((s.clearK.clearM.putM q r).putK key).putD digest).digestBytes = digest :=
    State.putD_digestBytes (s := s) digest hlength
  refine hD.trans (putV_putDigits_ops rfl (by simp) (by simp) (by simpa using hdigits) ?_)
  rw [hbytes, hwindow]

theorem Computes.ops (h : Computes s i u c) : StateOps s u := by
  cases h with
  | nop => exact .refl
  | clr => exact .head .clearK (.single (.emptySecret rfl))
  | pushFull => exact .head .clearK (.single (.overflowSecret rfl))
  | pushRoom imm8 hroom => exact .head .clearK (.single (.appendSecret imm8 hroom rfl))
  | decodeOverflow | decodeFail => exact .single .clearK
  | decodeKey fold key hovf hkey =>
    exact .head .clearK (.single (.putK fold key hovf hkey rfl rfl))
  | ctrPeriod => exact .single .clearM
  | ctr q r htime => exact .head .clearM (.single (.putM q r htime rfl rfl))
  | macSequence => exact .single .clearD
  | mac hk hm =>
    refine .head .clearD (.single (.putD _ hk hm ?_ (fun _ => rfl) rfl rfl))
    rw [length_hmac]
    exact Algorithm.digestLength_le _
  | truncSequence | truncRange => exact .single .clearV
  | trunc o v hd hwindow => exact .head .clearV (.single (.putV o v hd hwindow rfl))
  | modSequence | modDigits => exact .single .clearC
  | mod hv hdigits => exact .head .clearC (.single (.putDigits hv hdigits rfl))
  | genFail => exact .head .clearK (.single .clearM)
  | gen q r key o v hovf _ hdigits htime hkey hwindow =>
    exact gen_ops hovf hdigits htime hkey hwindow

theorem exec_ops (h : exec i s = .next t) : StateOps s t := by
  obtain ⟨-, rfl⟩ | ⟨-, u, c, hu, rfl⟩ := exec_cases h
  · exact .single (.record 0 false s.pending (some (.cmd 0)))
  · exact .tail hu.ops (.record c (stickyError u.ef c) u.pending (some (.cmd c)))

/-- A response to the host. -/
theorem respond_ops (s : State) (response : Response) :
    StateOps s { s with reply := some response } :=
  .single (.record s.lasterr s.ef s.pending (some response))

/-- A register write clears what was computed from the register before it writes it (R45). -/
theorem setRegister_ops (s : State) {r : RegName} (data : Word64) (h : r.writable = true) :
    StateOps s (s.setRegister r data) := by
  cases r with
  | alg => exact .head .clearD (.single (.setAlg _ rfl))
  | digits => exact .head .clearC (.single (.setDigits _ rfl))
  | period => exact .head .clearM (.single (.setClock _ s.time rfl))
  | time => exact .head .clearM (.single (.setClock s.period _ rfl))
  | status | slen | klen | counter | trem | dlen | offset | value | code => cases h

theorem serve_ops {x : Transaction} (h : serve x s = .next t) : StateOps s t := by
  cases x with
  | cmd w =>
    cases hd : decode w with
    | ok i => exact exec_ops ((command_legal hd s).symm.trans h)
    | error e =>
      cases (command_illegal hd s).symm.trans h
      exact .single (.record _ _ s.pending _)
  | reset => cases h; exact .single .reset
  | regRead idx =>
    cases h
    obtain ⟨ok, data, heq⟩ := regRead_cases idx s
    exact heq ▸ respond_ops s _
  | regWrite idx data =>
    cases h
    obtain heq | ⟨r, hr, heq⟩ := regWrite_cases idx data s
    · exact heq ▸ respond_ops s _
    · exact heq ▸ (setRegister_ops s data hr).trans (respond_ops _ _)
  | bufRead buf i =>
    cases h
    obtain ⟨ok, byte, heq⟩ := bufRead_cases buf i s
    exact heq ▸ respond_ops s _

theorem step_ops (h : step s = .next t) : StateOps s t := by
  obtain ⟨-, rfl⟩ | ⟨x, rest, -, hx⟩ := step_cases h
  · exact .refl
  · exact .head (.record s.lasterr s.ef rest s.reply) (serve_ops hx)

/-- What every operation keeps, every step keeps. -/
theorem step_preserves {P : State → Prop} (hop : ∀ {s t}, StateOp s t → P s → P t)
    (h : step s = .next t) (hs : P s) : P t :=
  (step_ops h).preserves hop hs

end Sys2Proof.Machine
end

section
/-! SUPPORT. The invariants of a safe run, operation by operation (10_state.md R26, R28 to R32, R41 to R43), and the
reset state (R49). -/

namespace Sys2Proof.Machine

variable {s t : State}

/-! ### The flags (R42) -/

theorem resetBlock_flagsConsistent (s : State) : (resetBlock s).FlagsConsistent :=
  ⟨nofun, nofun, nofun, nofun, nofun, nofun⟩

theorem StateOp.flagsConsistent (h : StateOp s t) (hs : s.FlagsConsistent) : t.FlagsConsistent := by
  cases h with
  | clearC => exact { hs with code := nofun, digits := nofun }
  | clearV => exact { hs with value := nofun, code := nofun, digits := nofun }
  | clearD => exact { hs with digest := nofun, value := nofun, code := nofun, digits := nofun }
  | clearK => exact ⟨nofun, nofun, nofun, nofun, nofun, hs.period⟩
  | clearM => exact ⟨nofun, nofun, nofun, hs.key, nofun, nofun⟩
  | putK _ _ hovf => exact { hs with digest := fun hd => ⟨rfl, (hs.digest hd).2⟩, key := fun _ => hovf }
  | putM q r htime =>
    exact { hs with
      digest := fun hd => ⟨(hs.digest hd).1, rfl⟩, period := fun _ => (timeStep_eq_some htime).1 }
  | putD _ hk hm => exact { hs with digest := fun _ => ⟨hk, hm⟩, value := fun _ => rfl }
  | putV _ _ hd => exact { hs with value := fun _ => hd, code := fun _ => rfl }
  | putDigits hv hdigits =>
    exact { hs with code := fun _ => hv, digits := fun _ => digitsLegal_iff.mp hdigits }
  | setAlg | record => exact { hs with }
  | setDigits _ hc => exact { hs with digits := fun ht => absurd ht (ne_true_of_eq_false hc) }
  | setClock _ _ hm => exact { hs with period := fun ht => absurd ht (ne_true_of_eq_false hm) }
  | emptySecret => exact { hs with key := fun _ => rfl }
  | overflowSecret hk => exact { hs with key := fun ht => absurd ht (ne_true_of_eq_false hk) }
  | appendSecret => exact { hs with }
  | reset => exact resetBlock_flagsConsistent s

/-- Settles O57: every operation keeps the flag rules. -/
theorem stepKeepsFlagRules : Obligations.StepKeepsFlagRules :=
  fun _ _ hs h => step_preserves StateOp.flagsConsistent h hs

/-! ### The lengths (R26, R28, R30) -/

theorem putK_klen_toNat {key : List Byte} (h : key.length ≤ 160) :
    (s.putK key).klen.toNat = key.length := by
  rw [State.putK_klen, BitVec.toNat_ofNat, Nat.mod_eq_of_lt (by omega)]

theorem putD_dlen_toNat {digest : List Byte} (h : digest.length ≤ Config.digestMax) :
    (s.putD digest).dlen.toNat = digest.length := by
  have : Config.digestMax = 64 := rfl
  rw [State.putD_dlen, BitVec.toNat_ofNat, Nat.mod_eq_of_lt (by omega)]

/-- A secret within its bound and not full does not wrap its length. -/
theorem slen_succ_toNat {n : Word16} (hb : n.toNat ≤ Config.secretMax) (hroom : n.toNat ≠ 256) :
    (n + 1).toNat = n.toNat + 1 ∧ n.toNat + 1 ≤ Config.secretMax := by
  have : Config.secretMax = 256 := rfl
  have : (1 : Word16).toNat = 1 := rfl
  rw [BitVec.toNat_add, Nat.mod_eq_of_lt (by omega)]
  omega

theorem resetBlock_bounded (s : State) : (resetBlock s).Bounded :=
  ⟨Nat.zero_le _, Nat.zero_le _, Nat.zero_le _⟩

theorem StateOp.bounded (h : StateOp s t) (hs : s.Bounded) : t.Bounded := by
  cases h with
  | clearC | clearV => exact { hs with }
  | clearD | clearM => exact { hs with dlen := Nat.zero_le _ }
  | clearK => exact { hs with klen := Nat.zero_le _, dlen := Nat.zero_le _ }
  | putK _ _ _ hkey =>
    have hlength := length_key_le hkey hs.slen
    exact { hs with klen := Nat.le_trans (Nat.le_of_eq (putK_klen_toNat hlength)) hlength }
  | putD _ _ _ hlength => exact { hs with dlen := Nat.le_trans (Nat.le_of_eq (putD_dlen_toNat hlength)) hlength }
  | putM | putV | putDigits | setAlg | setDigits | setClock | overflowSecret | record =>
    exact { hs with }
  | emptySecret => exact { hs with slen := Nat.zero_le _ }
  | appendSecret _ hroom =>
    obtain ⟨heq, hle⟩ := slen_succ_toNat hs.slen hroom
    exact { hs with slen := Nat.le_trans (Nat.le_of_eq heq) hle }
  | reset => exact resetBlock_bounded s

/-! ### The contents (R43, R32) -/

/-- A string stored to an empty buffer leaves 0x00 beyond its end. -/
theorem read_storeBytes_beyond {cap i : Nat} {bytes : List Byte} (hcap : bytes.length ≤ cap)
    (hi : bytes.length ≤ i) : (Memory.storeBytes cap [] 0 bytes).read i = 0 := by
  rw [Memory.read_storeBytes_nil bytes hcap, List.getD_eq_getElem?_getD, List.getElem?_eq_none hi]
  rfl

theorem resetBlock_zeroBeyond (s : State) : (resetBlock s).ZeroBeyond where
  secret _ _ _ := rfl
  key _ _ _ := rfl
  klen _ := rfl
  groupM _ := ⟨rfl, fun _ _ => rfl, rfl⟩
  digest _ _ _ := rfl
  dlen _ := rfl
  groupV _ := ⟨rfl, rfl⟩
  groupC _ := ⟨rfl, fun _ _ => rfl⟩
  codestr := nofun

/-- A cleared group holds zeros. -/
theorem clearC_zeroBeyond (hs : s.ZeroBeyond) : s.clearC.ZeroBeyond :=
  { hs with groupC := fun _ => ⟨rfl, fun _ _ => rfl⟩, codestr := nofun }

theorem clearV_zeroBeyond (hs : s.ZeroBeyond) : s.clearV.ZeroBeyond :=
  { clearC_zeroBeyond hs with groupV := fun _ => ⟨rfl, rfl⟩ }

theorem clearD_zeroBeyond (hs : s.ZeroBeyond) : s.clearD.ZeroBeyond :=
  { clearV_zeroBeyond hs with digest := fun _ _ _ => rfl, dlen := fun _ => rfl }

theorem clearK_zeroBeyond (hs : s.ZeroBeyond) : s.clearK.ZeroBeyond :=
  { clearD_zeroBeyond hs with key := fun _ _ _ => rfl, klen := fun _ => rfl }

theorem clearM_zeroBeyond (hs : s.ZeroBeyond) : s.clearM.ZeroBeyond :=
  { clearD_zeroBeyond hs with groupM := fun _ => ⟨rfl, fun _ _ => rfl, rfl⟩ }

theorem putK_zeroBeyond {key : List Byte} (hs : s.ZeroBeyond) (hempty : s.key = [])
    (hlength : key.length ≤ 160) : (s.putK key).ZeroBeyond :=
  { hs with
    key := fun i hi _ => by
      rw [putK_klen_toNat hlength] at hi
      rw [State.putK_key, hempty]
      exact read_storeBytes_beyond hlength hi
    klen := nofun }

theorem putD_zeroBeyond {digest : List Byte} (hs : s.ZeroBeyond) (hempty : s.digest = [])
    (hlength : digest.length ≤ Config.digestMax) : (s.putD digest).ZeroBeyond :=
  { hs with
    digest := fun i hi _ => by
      rw [putD_dlen_toNat hlength] at hi
      rw [State.putD_digest, hempty]
      exact read_storeBytes_beyond hlength hi
    dlen := nofun }

theorem digitsLegal_le {digits : BitVec 8} (h : digitsLegal digits = true) :
    digits.toNat ≤ Config.codeMax := by
  obtain rfl | rfl := digitsLegal_iff.mp h <;> decide

theorem putDigits_zeroBeyond {v : Word32} (hs : s.ZeroBeyond) (hempty : s.codestr = [])
    (hdigits : digitsLegal s.digits = true) : (s.putDigits v).ZeroBeyond :=
  { hs with
    groupC := nofun
    codestr := fun _ i hi _ => by
      rw [State.putDigits_codestr, hempty]
      exact read_storeBytes_beyond (by simpa using digitsLegal_le hdigits) (by simpa using hi) }

/-- The character goes to the first index beyond the text, so the bytes beyond the longer text are as they were. -/
theorem appendSecret_zeroBeyond (imm8 : Byte) (hb : s.Bounded) (hs : s.ZeroBeyond)
    (hroom : s.slen.toNat ≠ 256) :
    State.ZeroBeyond { s with
      secret := s.secret.storeBytes 256 s.slen.toNat [imm8], slen := s.slen + 1 } :=
  { hs with
    secret := fun i hi hcap => by
      have hi' : s.slen.toNat + 1 ≤ i := (slen_succ_toNat hb.slen hroom).1 ▸ hi
      exact (Memory.read_store_ne s.secret 256 imm8 (by omega)).trans
        (hs.secret i (by omega) hcap) }

theorem StateOp.zeroBeyond (h : StateOp s t) (hb : s.Bounded) (hs : s.ZeroBeyond) :
    t.ZeroBeyond := by
  cases h with
  | clearC => exact clearC_zeroBeyond hs
  | clearV => exact clearV_zeroBeyond hs
  | clearD => exact clearD_zeroBeyond hs
  | clearK => exact clearK_zeroBeyond hs
  | clearM => exact clearM_zeroBeyond hs
  | putK _ _ _ hkey hempty => exact putK_zeroBeyond hs hempty (length_key_le hkey hb.slen)
  | putM => exact { hs with groupM := nofun }
  | putD _ _ _ hlength _ hempty => exact putD_zeroBeyond hs hempty hlength
  | putV => exact { hs with groupV := nofun }
  | putDigits _ hdigits hempty => exact putDigits_zeroBeyond hs hempty hdigits
  | setAlg | setClock | overflowSecret | record => exact { hs with }
  | setDigits _ hc => exact { hs with codestr := fun ht => absurd ht (ne_true_of_eq_false hc) }
  | emptySecret => exact { hs with secret := fun _ _ _ => rfl }
  | appendSecret imm8 hroom => exact appendSecret_zeroBeyond imm8 hb hs hroom
  | reset => exact resetBlock_zeroBeyond s

/-- Settles O59: every operation keeps the bounds and, with them, the zeros. -/
theorem stepKeepsZeroContents : Obligations.StepKeepsZeroContents :=
  fun _ _ hb hs h => step_preserves (P := fun s => s.Bounded ∧ s.ZeroBeyond)
    (fun hop hs => ⟨hop.bounded hs.1, hop.zeroBeyond hs.1 hs.2⟩) h ⟨hb, hs⟩

/-! ### The representation (R61; log 5) -/

/-- A buffer in canonical form and within its capacity. -/
def Memory.Canonical (cap : Nat) (m : Memory) : Prop := m.wf = true ∧ m.within cap = true

theorem canonical_nil (cap : Nat) : Memory.Canonical cap [] := ⟨rfl, rfl⟩

theorem Memory.Canonical.storeBytes {cap : Nat} {m : Memory} (h : m.Canonical cap) (i : Nat)
    (bytes : List Byte) : (m.storeBytes cap i bytes).Canonical cap :=
  ⟨Memory.wf_storeBytes cap i bytes h.1, Memory.within_storeBytes i bytes h.2⟩

theorem canonical_iff : s.Canonical ↔
    s.secret.Canonical Config.secretMax ∧ s.key.Canonical Config.keyMax ∧
    s.msg.Canonical Config.msgLen ∧ s.digest.Canonical Config.digestMax ∧
    s.codestr.Canonical Config.codeMax := by
  constructor
  · exact fun h => ⟨h .secret, h .key, h .msg, h .digest, h .codestr⟩
  · rintro ⟨hsecret, hkey, hmsg, hdigest, hcodestr⟩ (_ | _ | _ | _ | _)
    · exact hsecret
    · exact hkey
    · exact hmsg
    · exact hdigest
    · exact hcodestr

theorem resetBlock_canonical (s : State) : (resetBlock s).Canonical :=
  canonical_iff.mpr ⟨canonical_nil _, canonical_nil _, canonical_nil _, canonical_nil _,
    canonical_nil _⟩

/-- An operation empties a buffer, stores to it, or leaves it. -/
theorem StateOp.canonical (h : StateOp s t) (hs : s.Canonical) : t.Canonical := by
  obtain ⟨hsecret, hkey, hmsg, hdigest, hcodestr⟩ := canonical_iff.mp hs
  have hnil := canonical_nil
  rw [canonical_iff]
  cases h with
  | clearC | clearV => exact ⟨hsecret, hkey, hmsg, hdigest, hnil _⟩
  | clearD => exact ⟨hsecret, hkey, hmsg, hnil _, hnil _⟩
  | clearK => exact ⟨hsecret, hnil _, hmsg, hnil _, hnil _⟩
  | clearM => exact ⟨hsecret, hkey, hnil _, hnil _, hnil _⟩
  | putK => exact ⟨hsecret, hkey.storeBytes _ _, hmsg, hdigest, hcodestr⟩
  | putM => exact ⟨hsecret, hkey, hmsg.storeBytes _ _, hdigest, hcodestr⟩
  | putD => exact ⟨hsecret, hkey, hmsg, hdigest.storeBytes _ _, hcodestr⟩
  | putDigits => exact ⟨hsecret, hkey, hmsg, hdigest, hcodestr.storeBytes _ _⟩
  | putV | setAlg | setDigits | setClock | overflowSecret | record =>
    exact ⟨hsecret, hkey, hmsg, hdigest, hcodestr⟩
  | emptySecret => exact ⟨hnil _, hkey, hmsg, hdigest, hcodestr⟩
  | appendSecret => exact ⟨hsecret.storeBytes _ _, hkey, hmsg, hdigest, hcodestr⟩
  | reset => exact ⟨hnil _, hnil _, hnil _, hnil _, hnil _⟩

/-! ### What a valid flag means (R41) -/

theorem resetBlock_resultsCurrent (s : State) : (resetBlock s).ResultsCurrent :=
  ⟨nofun, nofun, nofun, nofun, nofun⟩

/-! A string stored to an empty buffer is read back whole; the laws say it of a group just cleared. -/

theorem putK_keyBytes_of_empty {key : List Byte} (hempty : s.key = []) (hlength : key.length ≤ 160) :
    (s.putK key).keyBytes = key := by
  have hread : (s.putK key).keyBytes = (s.clearK.putK key).keyBytes := by
    simp [State.keyBytes, hempty]
  rw [hread, State.putK_keyBytes key hlength]

theorem putM_msgBytes_of_empty (q : Word64) (r : Word32) (hempty : s.msg = []) :
    (s.putM q r).msgBytes = beBytes 8 q.toNat := by
  have hread : (s.putM q r).msgBytes = (s.clearM.putM q r).msgBytes := by
    simp [State.msgBytes, hempty]
  rw [hread, State.putM_msgBytes]

theorem putD_digestBytes_of_empty {digest : List Byte} (hempty : s.digest = [])
    (hlength : digest.length ≤ Config.digestMax) : (s.putD digest).digestBytes = digest := by
  have hread : (s.putD digest).digestBytes = (s.clearD.putD digest).digestBytes := by
    simp [State.digestBytes, hempty]
  rw [hread, State.putD_digestBytes digest hlength]

theorem putDigits_codeText_of_empty (v : Word32) (hempty : s.codestr = [])
    (hdigits : digitsLegal s.digits = true) :
    (s.putDigits v).codeText = digitChars s.digits.toNat (codeOf v s.digits) := by
  have h := Memory.readBytes_storeBytes_nil (cap := Config.codeMax)
    (digitChars s.digits.toNat (codeOf v s.digits)) (by simpa using digitsLegal_le hdigits)
  rw [length_digitChars] at h
  rw [State.codeText, State.putDigits_codestr, State.putDigits_digits, hempty, h]

theorem putM_resultsCurrent {q : Word64} {r : Word32} (hs : s.ResultsCurrent)
    (htime : timeStep s.time s.period = some (q, r)) (hempty : s.msg = []) (hd : s.dv = false) :
    (s.putM q r).ResultsCurrent :=
  { hs with
    groupM := fun _ =>
      have ⟨_, hq, hr⟩ := timeStep_eq_some htime
      ⟨hq, putM_msgBytes_of_empty q r hempty, hr⟩
    groupD := fun ht => absurd ht (ne_true_of_eq_false hd) }

theorem putDigits_resultsCurrent (hs : s.ResultsCurrent) (hdigits : digitsLegal s.digits = true)
    (hempty : s.codestr = []) : (s.putDigits s.value).ResultsCurrent :=
  have hcode := codeOf_toNat (value := s.value) (digitsLegal_le hdigits)
  { hs with
    groupC := fun _ => ⟨hcode, by
      rw [putDigits_codeText_of_empty s.value hempty hdigits, State.putDigits_code, hcode]
      rfl⟩ }

theorem StateOp.resultsCurrent (h : StateOp s t) (hb : s.Bounded) (hs : s.ResultsCurrent) :
    t.ResultsCurrent := by
  cases h with
  | clearC => exact { hs with groupC := nofun }
  | clearV => exact { hs with groupV := nofun, groupC := nofun }
  | clearD => exact { hs with groupD := nofun, groupV := nofun, groupC := nofun }
  | clearK => exact ⟨nofun, hs.groupM, nofun, nofun, nofun⟩
  | clearM => exact ⟨hs.groupK, nofun, nofun, nofun, nofun⟩
  | putK fold key _ hkey hempty hd =>
    have hread := putK_keyBytes_of_empty hempty (length_key_le hkey hb.slen)
    exact { hs with
      groupK := fun _ => ⟨fold, hkey.trans (congrArg some hread.symm)⟩
      groupD := fun ht => absurd ht (ne_true_of_eq_false hd) }
  | putM q r htime hempty hd => exact putM_resultsCurrent hs htime hempty hd
  | putD digest _ _ hlength hdigest hempty hv =>
    exact { hs with
      groupD := fun _ => (putD_digestBytes_of_empty hempty hlength).trans (hdigest hb.slen)
      groupV := fun ht => absurd ht (ne_true_of_eq_false hv) }
  | putV o v _ hwindow hc =>
    exact { hs with groupV := fun _ => hwindow, groupC := fun ht => absurd ht (ne_true_of_eq_false hc) }
  | putDigits _ hdigits hempty => exact putDigits_resultsCurrent hs hdigits hempty
  | setAlg _ hd => exact { hs with groupD := fun ht => absurd ht (ne_true_of_eq_false hd) }
  | setDigits _ hc => exact { hs with groupC := fun ht => absurd ht (ne_true_of_eq_false hc) }
  | setClock _ _ hm => exact { hs with groupM := fun ht => absurd ht (ne_true_of_eq_false hm) }
  | emptySecret hk => exact { hs with groupK := fun ht => absurd ht (ne_true_of_eq_false hk) }
  | appendSecret _ _ hk => exact { hs with groupK := fun ht => absurd ht (ne_true_of_eq_false hk) }
  | overflowSecret | record => exact { hs with }
  | reset => exact resetBlock_resultsCurrent s

/-! ### The whole invariant -/

theorem resetBlock_inv (s : State) : (resetBlock s).Inv where
  bounded := resetBlock_bounded s
  canonical := resetBlock_canonical s
  flags := resetBlock_flagsConsistent s
  zeros := resetBlock_zeroBeyond s
  results := resetBlock_resultsCurrent s

theorem StateOp.inv (h : StateOp s t) (hs : s.Inv) : t.Inv where
  bounded := h.bounded hs.bounded
  canonical := h.canonical hs.canonical
  flags := h.flagsConsistent hs.flags
  zeros := h.zeroBeyond hs.bounded hs.zeros
  results := h.resultsCurrent hs.bounded hs.results

/-- Settles O60: every operation keeps the invariant. -/
theorem stepKeepsInvariant : Obligations.StepKeepsInvariant :=
  fun _ _ hs h => step_preserves StateOp.inv h hs

/-- Settles O56: the reset state is what `Reset` leaves of it. -/
theorem resetMeetsInvariant : Obligations.ResetMeetsInvariant := resetBlock_inv State.reset

/-! ### Reset values and `STATUS` (R49, R33) -/

theorem read_reset_buffer (b : BufName) (i : Nat) : (State.reset.buffer b).read i = 0 := by
  cases b <;> rfl

/-- Settles O8, row by row of the table of R49. -/
theorem resetValues : Obligations.ResetValues := by
  refine ⟨rfl, rfl, rfl, rfl, read_reset_buffer, ?_⟩
  decide

/-- `STATUS` bit by bit: the flags, the reserved bit, and `LASTERR` with zeros above it (R33). -/
theorem getLsbD_status (s : State) (i : Nat) : s.status.getLsbD i =
    if i < 8 then [s.kv, s.mv, s.dv, s.vv, s.cv, s.ovf, s.ef, false].getD i false
    else s.lasterr.getLsbD (i - 8) := by
  rw [State.status, BitVec.getLsbD_append]
  simp only [BitVec.getLsbD_append]
  match i with
  | 0 | 1 | 2 | 3 | 4 | 5 | 6 | 7 => simp
  | k + 8 =>
    have habove : ¬ k + 8 < 8 := by omega
    by_cases hk : k < 4
    · simp [hk, habove]
    · have hzero := BitVec.getLsbD_of_ge s.lasterr k (Nat.not_lt.mp hk)
      simp [hzero]

/-- Settles O9: each bit of the concatenation. -/
theorem statusBits : Obligations.StatusBits := by
  intro s
  have bit := getLsbD_status s
  refine ⟨bit 0, bit 1, bit 2, bit 3, bit 4, bit 5, bit 6, bit 7, ?_, ?_⟩ <;> ext i hi <;>
    rw [BitVec.getElem_extractLsb', bit, if_neg (by omega)]
  · simp [BitVec.getLsbD_eq_getElem hi]
  · simpa using BitVec.getLsbD_of_ge s.lasterr (12 + i - 8) (by omega)

end Sys2Proof.Machine
end

section
/-! SUPPORT. The host port (20_memory.md R63 to R69): what a read answers, as an optional register or byte, and the
state an accepted register write leaves. The claims about reads, writes, `Reset` and command words follow from these. -/

namespace Sys2Proof.Machine

variable {s : State} {idx : BitVec 8} {data : Word64} {buf : BitVec 3} {i : Word16}
  {r : RegName} {b : BufName} {rest : List Transaction}

/-! ### Register reads (R63, R64) -/

/-- A mapped index answers its register, an unmapped one is refused with 0. -/
theorem regRead_eq (idx : BitVec 8) (s : State) : regRead idx s = { s with
    reply := some (.regRead (registerAt idx).isSome (((registerAt idx).map s.register).getD 0)) } := by
  cases h : registerAt idx with
  | none => exact regRead_unmapped h s
  | some r => exact regRead_mapped h s

theorem step_regRead (hp : s.pending = .regRead idx :: rest) :
    step s = .next { s with
      pending := rest
      reply := some (.regRead (registerAt idx).isSome (((registerAt idx).map s.register).getD 0)) } := by
  rw [step_serves hp, serve, regRead_eq]
  cases registerAt idx with
  | none => rfl
  | some r => cases r <;> rfl

/-- Settles O10: each index names its register, whose contents are zero-extended. -/
theorem regReadAnswersRegister : Obligations.RegReadAnswersRegister := by
  intro s idx rest hp
  have zeroExtended {n : Nat} (x : BitVec n) (h : n ≤ 64) : (x.setWidth 64).toNat = x.toNat :=
    BitVec.toNat_setWidth_of_le h
  refine ⟨_, _, step_regRead hp, registerAt_mapped, ?_, ?_, ?_, ?_, ?_, ?_, ?_, ?_, ?_, ?_, ?_, ?_, ?_, ?_⟩
  · rintro rfl; exact zeroExtended s.status (by decide)
  · rintro rfl; exact zeroExtended s.alg (by decide)
  · rintro rfl; exact zeroExtended s.digits (by decide)
  · rintro rfl; exact zeroExtended s.period (by decide)
  · rintro rfl; rfl
  · rintro rfl; exact zeroExtended s.slen (by decide)
  · rintro rfl; exact zeroExtended s.klen (by decide)
  · rintro rfl; rfl
  · rintro rfl; exact zeroExtended s.trem (by decide)
  · rintro rfl; exact zeroExtended s.dlen (by decide)
  · rintro rfl; exact zeroExtended s.offset (by decide)
  · rintro rfl; exact zeroExtended s.value (by decide)
  · rintro rfl; exact zeroExtended s.code (by decide)
  · intro h
    rw [registerAt_unmapped h]
    exact ⟨rfl, rfl⟩

/-! ### Register writes (R65, R66) -/

theorem registerAt_readOnly (hlow : 0x05 ≤ idx.toNat) (hhigh : idx.toNat ≤ 0x0C) :
    (registerAt idx).map RegName.writable = some false := by
  revert idx; decide

theorem writeAccepted_readOnly (h : r.writable = false) : writeAccepted r data = false := by
  rw [writeAccepted, h, Bool.false_and]

theorem writeAccepted_wide (h : 2 ^ r.width ≤ data.toNat) : writeAccepted r data = false := by
  rw [writeAccepted, decide_eq_false (Nat.not_lt.mpr h), Bool.and_false]

/-- Settles O12, by the reason for the refusal. -/
theorem refusedWriteChangesNothing : Obligations.RefusedWriteChangesNothing := by
  intro s idx data rest hp hrefused
  rw [step_serves hp]
  refine congrArg Host.Outcome.next ?_
  obtain h | rfl | ⟨hlow, hhigh⟩ | ⟨rfl, h⟩ | ⟨rfl, h⟩ | ⟨rfl, h⟩ := hrefused
  · exact regWrite_unmapped (registerAt_unmapped h) _
  · exact regWrite_refused (r := .status) rfl (writeAccepted_readOnly rfl) _
  · obtain ⟨r, hr, hreadOnly⟩ := Option.map_eq_some_iff.mp (registerAt_readOnly hlow hhigh)
    exact regWrite_refused hr (writeAccepted_readOnly hreadOnly) _
  · exact regWrite_refused (r := .alg) rfl (writeAccepted_wide h) _
  · exact regWrite_refused (r := .digits) rfl (writeAccepted_wide h) _
  · exact regWrite_refused (r := .period) rfl (writeAccepted_wide h) _

/-- The state an accepted register write leaves, with `rest` still to serve. -/
def State.written (s : State) (r : RegName) (data : Word64) (rest : List Transaction) : State :=
  { s.setRegister r data with pending := rest, reply := some (.regWrite true) }

theorem step_regWrite (hp : s.pending = .regWrite idx data :: rest) (hr : registerAt idx = some r)
    (hw : r.writable = true) (hfit : data.toNat < 2 ^ r.width) :
    step s = .next (s.written r data rest) := by
  rw [step_serves hp, serve, regWrite_accepted hr (writeAccepted_iff.mpr ⟨hw, hfit⟩)]
  cases r <;> rfl

theorem written_sameSecret : s.SameSecret (s.written r data rest) :=
  ⟨fun n => congrArg (Memory.read · n) (s.setRegister_secret r data), s.setRegister_slen r data,
    s.setRegister_ovf r data⟩

theorem written_sameK : s.SameK (s.written r data rest) :=
  ⟨fun n => congrArg (Memory.read · n) (s.setRegister_key r data), s.setRegister_klen r data,
    s.setRegister_kv r data⟩

theorem written_sameErrors : s.SameErrors (s.written r data rest) :=
  ⟨s.setRegister_lasterr r data, s.setRegister_ef r data⟩

theorem written_sameM (h : r = .alg ∨ r = .digits) : s.SameM (s.written r data rest) := by
  obtain rfl | rfl := h <;> exact ⟨rfl, fun _ => rfl, rfl, rfl⟩

/-- Group C is computed from every writable register (R45). -/
theorem written_clearedC (h : r.writable = true) : (s.written r data rest).ClearedC := by
  cases r with
  | alg | digits | period | time => exact ⟨rfl, fun _ => rfl, rfl⟩
  | _ => exact absurd h (by decide)

/-- Groups D and V are computed from every writable register but `DIGITS` (R45). -/
theorem written_clearedD (h : r = .alg ∨ r = .period ∨ r = .time) :
    (s.written r data rest).ClearedD := by
  obtain rfl | rfl | rfl := h <;> exact ⟨fun _ => rfl, rfl, rfl⟩

theorem written_clearedV (h : r = .alg ∨ r = .period ∨ r = .time) :
    (s.written r data rest).ClearedV := by
  obtain rfl | rfl | rfl := h <;> exact ⟨rfl, rfl, rfl⟩

/-- Group M is computed from the clock's two registers (R45). -/
theorem written_clearedM (h : r = .period ∨ r = .time) : (s.written r data rest).ClearedM := by
  obtain rfl | rfl := h <;> exact ⟨rfl, fun _ => rfl, rfl, rfl⟩

theorem toNat_setWidth_of_fits {n : Nat} (h : data.toNat < 2 ^ n) :
    (data.setWidth n).toNat = data.toNat := by
  rw [BitVec.toNat_setWidth, Nat.mod_eq_of_lt h]

/-- Settles O11, register by register. -/
theorem acceptedWriteStoresAndClears : Obligations.AcceptedWriteStoresAndClears := by
  intro s idx data rest hp
  refine ⟨?_, ?_, ?_, ?_⟩
  · rintro rfl hfit
    exact ⟨_, step_regWrite hp (r := .alg) rfl rfl hfit, toNat_setWidth_of_fits hfit, rfl, rfl, rfl,
      written_sameSecret, written_sameK, written_sameM (.inl rfl), written_clearedD (.inl rfl),
      written_clearedV (.inl rfl), written_clearedC rfl, written_sameErrors, rfl, rfl⟩
  · rintro rfl hfit
    exact ⟨_, step_regWrite hp (r := .digits) rfl rfl hfit, toNat_setWidth_of_fits hfit, rfl, rfl, rfl,
      written_sameSecret, written_sameK, written_sameM (.inr rfl), ⟨fun _ => rfl, rfl, rfl⟩,
      ⟨rfl, rfl, rfl⟩, written_clearedC rfl, written_sameErrors, rfl, rfl⟩
  · rintro rfl hfit
    exact ⟨_, step_regWrite hp (r := .period) rfl rfl hfit, toNat_setWidth_of_fits hfit, rfl, rfl, rfl,
      written_sameSecret, written_sameK, written_clearedM (.inl rfl), written_clearedD (.inr (.inl rfl)),
      written_clearedV (.inr (.inl rfl)), written_clearedC rfl, written_sameErrors, rfl, rfl⟩
  · rintro rfl
    exact ⟨_, step_regWrite hp (r := .time) rfl rfl data.isLt, rfl, rfl, rfl, rfl,
      written_sameSecret, written_sameK, written_clearedM (.inr rfl), written_clearedD (.inr (.inr rfl)),
      written_clearedV (.inr (.inr rfl)), written_clearedC rfl, written_sameErrors, rfl, rfl⟩

/-- The register an accepted write names holds the data. -/
theorem register_written (hw : r.writable = true) (hfit : data.toNat < 2 ^ r.width) :
    (s.written r data rest).register r = data := by
  have fits {n : Nat} (h : data.toNat < 2 ^ n) : (data.setWidth n).setWidth 64 = data :=
    BitVec.eq_of_toNat_eq (by
      rw [BitVec.toNat_setWidth, toNat_setWidth_of_fits h, Nat.mod_eq_of_lt data.isLt])
  cases r with
  | alg => exact fits hfit
  | digits => exact fits hfit
  | period => exact fits hfit
  | time => rfl
  | _ => exact absurd hw (by decide)

/-- A write and a read of the same register, one after the other. -/
theorem run_write_read (hp : s.pending = .regWrite idx data :: .regRead idx :: rest)
    (hr : registerAt idx = some r) (hw : r.writable = true) (hfit : data.toNat < 2 ^ r.width) :
    ∃ t, core.run 2 s = .next t ∧ t.reply = some (.regRead true data) ∧ t.pending = rest := by
  have hwrite := step_regWrite hp hr hw hfit
  have hread := step_regRead (s := s.written r data (.regRead idx :: rest)) rfl
  rw [hr, Option.map_some, register_written hw hfit] at hread
  rw [core_run_succ 1 hwrite, core_run_succ 0 hread, core_run_zero]
  exact ⟨_, rfl, rfl, rfl⟩

/-- Settles O14, register by register. -/
theorem writtenRegisterReadsBack : Obligations.WrittenRegisterReadsBack := by
  intro s idx data rest hp haccepted
  obtain ⟨rfl, hfit⟩ | ⟨rfl, hfit⟩ | ⟨rfl, hfit⟩ | rfl := haccepted
  · exact run_write_read hp (r := .alg) rfl rfl hfit
  · exact run_write_read hp (r := .digits) rfl rfl hfit
  · exact run_write_read hp (r := .period) rfl rfl hfit
  · exact run_write_read hp (r := .time) rfl rfl data.isLt

/-! ### Buffer reads (R67) -/

/-- The byte of the buffer `buf` at `i`, where the id is mapped and `i` is below the capacity. -/
def State.byteAt (s : State) (buf : BitVec 3) (i : Nat) : Option Byte :=
  (bufferAt buf).bind fun b => if i < b.capacity then some ((s.buffer b).read i) else none

theorem byteAt_within {n : Nat} (hb : bufferAt buf = some b) (hi : n < b.capacity) :
    s.byteAt buf n = some ((s.buffer b).read n) := by
  rw [State.byteAt, hb, Option.bind_some, if_pos hi]

theorem byteAt_beyond {n : Nat} (hb : bufferAt buf = some b) (hi : b.capacity ≤ n) :
    s.byteAt buf n = none := by
  rw [State.byteAt, hb, Option.bind_some, if_neg (Nat.not_lt.mpr hi)]

theorem byteAt_unmapped {n : Nat} (hb : bufferAt buf = none) : s.byteAt buf n = none := by
  rw [State.byteAt, hb, Option.bind_none]

/-- The ids above the last buffer are unmapped (R61). -/
theorem bufferAt_unmapped (h : 5 ≤ buf.toNat) : bufferAt buf = none := by
  revert buf; decide

/-- A buffer read answers the byte there, or is refused with 0x00. -/
theorem bufRead_eq (buf : BitVec 3) (i : Word16) (s : State) : bufRead buf i s = { s with
    reply := some (.bufRead (s.byteAt buf i.toNat).isSome ((s.byteAt buf i.toNat).getD 0)) } := by
  cases hb : bufferAt buf with
  | none => rw [bufRead_unmapped hb, byteAt_unmapped hb]; rfl
  | some b =>
    by_cases hi : i.toNat < b.capacity
    · rw [bufRead_within hb hi, byteAt_within hb hi]; rfl
    · rw [bufRead_beyond hb (Nat.not_lt.mp hi), byteAt_beyond hb (Nat.not_lt.mp hi)]; rfl

theorem step_bufRead (hp : s.pending = .bufRead buf i :: rest) :
    step s = .next { s with
      pending := rest
      reply := some (.bufRead (s.byteAt buf i.toNat).isSome ((s.byteAt buf i.toNat).getD 0)) } := by
  rw [step_serves hp, serve, bufRead_eq]
  rfl

theorem byteAt_answer {n : Nat} (hb : bufferAt buf = some b) (hi : n < b.capacity) :
    (s.byteAt buf n).isSome = true ∧ (s.byteAt buf n).getD 0 = (s.buffer b).read n := by
  rw [byteAt_within hb hi]
  exact ⟨rfl, rfl⟩

theorem byteAt_refusal {n : Nat} (h : s.byteAt buf n = none) :
    (s.byteAt buf n).isSome = false ∧ (s.byteAt buf n).getD 0 = 0 := by
  rw [h]
  exact ⟨rfl, rfl⟩

/-- A read answers 0x00 where the buffer holds it below the capacity: beyond, a refusal answers it. -/
theorem byteAt_zero {n : Nat} (hb : bufferAt buf = some b)
    (hzero : n < b.capacity → (s.buffer b).read n = 0) : (s.byteAt buf n).getD 0 = 0 := by
  by_cases hi : n < b.capacity
  · exact (byteAt_answer hb hi).2.trans (hzero hi)
  · exact (byteAt_refusal (byteAt_beyond hb (Nat.not_lt.mp hi))).2

/-- `CODESTR` is 0x00 from `DIGITS` on, whether the code is valid (R32) or not (R43). -/
theorem State.ZeroBeyond.codestr_read {n : Nat} (hz : s.ZeroBeyond) (hn : s.digits.toNat ≤ n)
    (hcap : n < Config.codeMax) : s.codestr.read n = 0 := by
  cases hcv : s.cv with
  | true => exact hz.codestr hcv n hn hcap
  | false => exact (hz.groupC hcv).2 n hcap

/-- Settles O13: an id names its buffer, and the zeros are those of the contents invariant. -/
theorem bufReadAnswersByte : Obligations.BufReadAnswersByte := by
  intro s buf i rest hp
  refine ⟨_, _, step_bufRead hp, ?_, ?_, ?_, ?_, ?_, ?_, ?_⟩
  · rintro rfl hi; exact byteAt_answer (b := .secret) rfl hi
  · rintro rfl hi; exact byteAt_answer (b := .key) rfl hi
  · rintro rfl hi; exact byteAt_answer (b := .msg) rfl hi
  · rintro rfl hi; exact byteAt_answer (b := .digest) rfl hi
  · rintro rfl hi; exact byteAt_answer (b := .codestr) rfl hi
  · intro hrefused
    refine byteAt_refusal ?_
    obtain ⟨rfl, hi⟩ | ⟨rfl, hi⟩ | ⟨rfl, hi⟩ | ⟨rfl, hi⟩ | ⟨rfl, hi⟩ | hbuf := hrefused
    · exact byteAt_beyond (b := .secret) rfl hi
    · exact byteAt_beyond (b := .key) rfl hi
    · exact byteAt_beyond (b := .msg) rfl hi
    · exact byteAt_beyond (b := .digest) rfl hi
    · exact byteAt_beyond (b := .codestr) rfl hi
    · exact byteAt_unmapped (bufferAt_unmapped hbuf)
  · rintro hz (⟨rfl, hi⟩ | ⟨rfl, hi⟩ | ⟨rfl, hi⟩ | ⟨rfl, hi⟩ | ⟨rfl, hmv⟩ | ⟨rfl, hcv⟩)
    · exact byteAt_zero (b := .secret) rfl (hz.secret _ hi)
    · exact byteAt_zero (b := .key) rfl (hz.key _ hi)
    · exact byteAt_zero (b := .digest) rfl (hz.digest _ hi)
    · exact byteAt_zero (b := .codestr) rfl (hz.codestr_read hi)
    · exact byteAt_zero (b := .msg) rfl ((hz.groupM hmv).2.1 _)
    · exact byteAt_zero (b := .codestr) rfl ((hz.groupC hcv).2 _)

/-! ### Command words and `Reset` (R68, R69) -/

/-- The table's word is decoded as the command word that is presented for it. -/
theorem decode_tableWord {nbits w : Nat} {c : Instr} (h : decodeTableWord nbits w = some c) :
    decode (tableWord nbits w) = .ok c := by
  unfold decodeTableWord at h
  split at h
  · change (decode (tableWord nbits w)).toOption = some c at h
    cases hd : decode (tableWord nbits w) with
    | ok c' => rw [hd] at h; exact congrArg _ (Option.some.inj h)
    | error e => rw [hd] at h; cases h
  · cases h

theorem step_command {w : Word16} {c : Instr} (hp : s.pending = .cmd w :: rest)
    (hd : decode w = .ok c) : step s = exec c { s with pending := rest } :=
  (step_serves hp).trans (command_legal hd _)

/-- Settles O4: the word `withFetchWord` presents is the first one pending. -/
theorem stepRunsDecodedCommand : Obligations.StepRunsDecodedCommand :=
  ⟨fun _ _ _ _ hp hd => step_command hp hd, fun _ _ _ _ h => step_command rfl (decode_tableWord h)⟩

/-- Settles O7: `Reset` leaves the reset state but for what is still pending. -/
theorem resetGivesResetState : Obligations.ResetGivesResetState :=
  fun _ _ hp => step_serves hp

/-! ### The buffers' representation (R61; log 5) -/

/-- Settles O58: every operation of a step keeps the buffers canonical. -/
theorem stepKeepsBuffersCanonical : Obligations.StepKeepsBuffersCanonical :=
  fun _ _ hs h => step_preserves StateOp.canonical h hs

end Sys2Proof.Machine
end

section
/-! SUPPORT. The command word and the alphabet (30_encoding.md): decoding inverts encoding, a word is illegal where
R98's conditions on its number say so, and which characters have a Base32 value (R104). -/

namespace Sys2Proof

/-! ### Decoding inverts encoding (R97 to R99) -/

theorem CommandFields.wellFormed_iff {f : CommandFields} : f.wellFormed = true ↔
    f.opAssigned = true ∧ f.zeroClear = true ∧ f.immAllowed = true := by
  simp only [CommandFields.wellFormed, Bool.and_eq_true, and_assoc]

/-- A word that passes the three checks is the command its opcode names. -/
theorem decode_wellFormed {w : Word16} (h : (splitWord w).wellFormed = true) :
    decode w = commandOf (splitWord w) := by
  obtain ⟨hop, hzero, himm⟩ := CommandFields.wellFormed_iff.mp h
  simp only [decode, hop, hzero, himm, Bool.not_true, Bool.false_eq_true, if_false]

theorem commandOf_fields (i : Instr) : commandOf i.fields = .ok i := by cases i <;> rfl

@[simp] theorem splitWord_encode (i : Instr) : splitWord (encode i) = i.fields :=
  splitWord_joinWord i.fields

theorem encode_wellFormed (i : Instr) : (splitWord (encode i)).wellFormed = true := by
  rw [splitWord_encode]
  cases i <;> rfl

@[simp] theorem decode_encode (i : Instr) : decode (encode i) = .ok i := by
  rw [decode_wellFormed (encode_wellFormed i), splitWord_encode, commandOf_fields]

/-- Settles O3: a legal word is its command's word, and that word splits into the command's own fields. -/
theorem decodeInvertsEncode : Obligations.DecodeInvertsEncode :=
  fun _ i => ⟨Machine.eq_encode_of_decode, fun h => h ▸ decode_encode i⟩

/-! ### The illegal words (R98) -/

/-- Every assigned opcode names a command. -/
theorem commandOf_assigned {f : CommandFields} (h : f.opAssigned = true) :
    ∃ i, commandOf f = .ok i := by
  have hop : f.op.toNat < 0xB := BitVec.lt_def.mp (of_decide_eq_true h)
  unfold commandOf
  split
  case h_12 => simp only [imp_false] at *; omega
  all_goals exact ⟨_, rfl⟩

theorem decode_ok_iff {w : Word16} : (∃ i, decode w = .ok i) ↔ (splitWord w).wellFormed = true := by
  constructor
  · rintro ⟨i, h⟩
    exact Machine.eq_encode_of_decode h ▸ encode_wellFormed i
  · intro h
    rw [decode_wellFormed h]
    exact commandOf_assigned (CommandFields.wellFormed_iff.mp h).1

theorem decode_error_iff_not_ok {w : Word16} :
    (∃ e, decode w = .error e) ↔ ¬ ∃ i, decode w = .ok i := by
  cases decode w <;> simp

theorem splitWord_op_toNat (w : Word16) : (splitWord w).op.toNat = w.toNat / 4096 := by
  have := w.isLt
  rw [splitWord_op, BitVec.extractLsb'_toNat, Nat.shiftRight_eq_div_pow]
  omega

theorem splitWord_zero_toNat (w : Word16) : (splitWord w).zero.toNat = w.toNat / 256 % 16 := by
  rw [splitWord_zero, BitVec.extractLsb'_toNat, Nat.shiftRight_eq_div_pow]

theorem splitWord_imm8_toNat (w : Word16) : (splitWord w).imm8.toNat = w.toNat % 256 := by
  rw [splitWord_imm8, BitVec.extractLsb'_toNat, Nat.shiftRight_zero]

/-- The three checks of R98, on the word as a number. -/
theorem splitWord_wellFormed_iff {w : Word16} : (splitWord w).wellFormed = true ↔
    w.toNat / 4096 < 0xB ∧ w.toNat / 256 % 16 = 0 ∧ (w.toNat / 4096 = 2 ∨ w.toNat % 256 = 0) := by
  simp only [CommandFields.wellFormed_iff, CommandFields.opAssigned, CommandFields.zeroClear,
    CommandFields.immAllowed, decide_eq_true_eq, Bool.or_eq_true, beq_iff_eq, BitVec.lt_def,
    ← BitVec.toNat_inj, splitWord_op_toNat, splitWord_zero_toNat, splitWord_imm8_toNat]
  rfl

/-- A word is illegal exactly where one of the three clauses of R98 rejects it. -/
theorem decode_error_iff {w : Word16} : (∃ e, decode w = .error e) ↔
    (0xB ≤ w.toNat / 4096 ∨ w.toNat / 256 % 16 ≠ 0 ∨
      (w.toNat % 256 ≠ 0 ∧ w.toNat / 4096 ≠ 2)) := by
  rw [decode_error_iff_not_ok, decode_ok_iff, splitWord_wellFormed_iff]
  omega

/-! ### The opcode map (R97) -/

/-- The word of `PUSH` as a number: the opcode and the immediate do not overlap. -/
theorem encode_push (imm8 : Byte) : encode (.push imm8) = 0x2000 + imm8.setWidth 16 := by
  have hjoin : (encode (.push imm8)).toNat = 0x20 <<< 8 ||| imm8.toNat :=
    BitVec.toNat_append (0x2#4 ++ 0#4) imm8
  rw [← Nat.shiftLeft_add_eq_or_of_lt imm8.isLt] at hjoin
  bv_omega

/-- Settles O2, from the words the commands are encoded to. -/
theorem decodesOpcodeMap : Obligations.DecodesOpcodeMap :=
  ⟨decode_encode .nop, decode_encode .clr, fun imm8 => encode_push imm8 ▸ decode_encode (.push imm8),
    decode_encode .dec, decode_encode .decu, decode_encode .ctr, decode_encode .mac,
    decode_encode .trunc, decode_encode .mod, decode_encode .gen, decode_encode .clrerr,
    fun _ => decode_error_iff⟩

/-- Settles O1, from the words the commands are encoded to; no command has the opcode 0xB. -/
theorem commandWordsDecode : Obligations.CommandWordsDecode :=
  ⟨decode_encode .clr, decode_encode (.push 0x4A), decode_encode (.push 0x42), decode_encode .decu,
    decode_encode .ctr, decode_encode .mac, decode_encode .trunc, decode_encode .mod,
    decode_encode .gen, rfl⟩

namespace Machine

/-! ### An illegal word as a command (R100) -/

variable {s : State}

/-- Taking an illegal word off the port and recording it leaves the data as they were. -/
theorem illegalCommand_sameData (rest : List Transaction) :
    s.SameData { s with pending := rest }.illegalCommand where
  config := ⟨rfl, rfl, rfl, rfl⟩
  secret := ⟨fun _ => rfl, rfl, rfl⟩
  groupK := ⟨fun _ => rfl, rfl, rfl⟩
  groupM := ⟨rfl, fun _ => rfl, rfl, rfl⟩
  groupD := ⟨fun _ => rfl, rfl, rfl⟩
  groupV := ⟨rfl, rfl, rfl⟩
  groupC := ⟨rfl, fun _ => rfl, rfl⟩

theorem illegalCommand_ef : s.illegalCommand.ef = true := by
  rw [State.illegalCommand, State.raise_ef]
  exact Bool.or_true s.ef

theorem step_illegal {w : Word16} {e : IllegalWord} {rest : List Transaction}
    (hp : s.pending = .cmd w :: rest) (hd : decode w = .error e) :
    step s = .next { s with pending := rest }.illegalCommand :=
  (step_serves hp).trans (command_illegal hd _)

/-- Settles O5: an illegal word is one the decoder rejects, and the error entry is all it does. -/
theorem illegalWordRecordsIllegalCommand : Obligations.IllegalWordRecordsIllegalCommand := by
  intro s w rest hp hw
  obtain ⟨e, hd⟩ := decode_error_iff.mpr hw
  exact ⟨_, step_illegal hp hd, illegalCommand_sameData rest, rfl, illegalCommand_ef, rfl, rfl⟩

/-! ### The Base32 alphabet (R104, R105) -/

theorem b32val_letter {c : Byte} (hlo : 0x41 ≤ c.toNat) (hhi : c.toNat ≤ 0x5A) :
    b32val c = some (c.toNat - 0x41) :=
  if_pos ⟨BitVec.le_def.mpr hlo, BitVec.le_def.mpr hhi⟩

theorem b32val_digit {c : Byte} (hlo : 0x32 ≤ c.toNat) (hhi : c.toNat ≤ 0x37) :
    b32val c = some (c.toNat - 0x32 + 26) := by
  have hletter : ¬ (0x41 ≤ c ∧ c ≤ 0x5A) := by bv_omega
  rw [b32val, if_neg hletter, if_pos ⟨BitVec.le_def.mpr hlo, BitVec.le_def.mpr hhi⟩]

theorem b32val_outside {c : Byte} (hletter : c.toNat < 0x41 ∨ 0x5A < c.toNat)
    (hdigit : c.toNat < 0x32 ∨ 0x37 < c.toNat) : b32val c = none := by
  rw [b32val, if_neg (by bv_omega), if_neg (by bv_omega)]

/-- Settles O23, by the two ranges of the alphabet and what is outside both. -/
theorem alphabetValues : Obligations.AlphabetValues := by
  refine ⟨fun v hv => ?_, fun v hlo hhi => ?_, fun _ => b32val_outside⟩
  · have hc : (BitVec.ofNat 8 (0x41 + v)).toNat = 0x41 + v := Nat.mod_eq_of_lt (by omega)
    rw [b32val_letter (by omega) (by omega), hc, Nat.add_sub_cancel_left]
  · have hc : (BitVec.ofNat 8 (0x32 + (v - 26))).toNat = 0x32 + (v - 26) :=
      Nat.mod_eq_of_lt (by omega)
    rw [b32val_digit (by omega) (by omega), hc, Nat.add_sub_cancel_left, Nat.sub_add_cancel hlo]

end Machine

end Sys2Proof
end

section
/-! SUPPORT. The commands that load the secret and keep the error record (40_buffer_commands.md R131 to R135). `CLR` and
`PUSH` leave states of one shape, `State.edited`; what they clear and keep is said of it once. -/

namespace Sys2Proof.Machine

variable {s t u : State} {secret : Memory} {slen : Word16} {ovf : Bool} {c : BitVec 4} {imm8 : Byte}
  {text : List Byte} {rest : List Transaction}

/-! ### The commands that touch the error record alone (R131, R134) -/

/-- The error record and the two ends of the port are no data. -/
theorem record_sameData (s : State) (lasterr : BitVec 4) (ef : Bool) (pending : List Transaction)
    (reply : Option Response) : s.SameData { s with lasterr, ef, pending, reply } where
  config := ⟨rfl, rfl, rfl, rfl⟩
  secret := ⟨fun _ => rfl, rfl, rfl⟩
  groupK := ⟨fun _ => rfl, rfl, rfl⟩
  groupM := ⟨rfl, fun _ => rfl, rfl, rfl⟩
  groupD := ⟨fun _ => rfl, rfl, rfl⟩
  groupV := ⟨rfl, rfl, rfl⟩
  groupC := ⟨rfl, fun _ => rfl, rfl⟩

theorem complete_records (s : State) (c : BitVec 4) : s.Records c (s.complete c) :=
  ⟨rfl, rfl, rfl, rfl⟩

/-- Settles O15: completing is all `NOP` does. -/
theorem nopOnlyCompletes : Obligations.NopOnlyCompletes :=
  ⟨decode_encode .nop, fun s =>
    ⟨s.complete 0, rfl, record_sameData s 0 (stickyError s.ef 0) s.pending (some (.cmd 0)),
      complete_records s 0⟩⟩

/-- Settles O18: `CLRERR` writes the error record and answers. -/
theorem clrerrClearsErrorRecord : Obligations.ClrerrClearsErrorRecord :=
  ⟨decode_encode .clrerr, fun s =>
    ⟨_, rfl, record_sameData s 0 false s.pending (some (.cmd 0)), rfl, rfl, rfl, rfl⟩⟩

/-! ### What `CLR` and `PUSH` leave (R132, R133) -/

/-- The state left by a command that writes the secret and completes with `c`, with `rest` still to serve: every group
computed from the secret is cleared. -/
def State.edited (s : State) (secret : Memory) (slen : Word16) (ovf : Bool) (c : BitVec 4)
    (rest : List Transaction) : State :=
  State.complete { s.clearK with secret, slen, ovf, pending := rest } c

theorem exec_clr_eq (s : State) : exec .clr s = .next (s.edited [] 0 false 0 s.pending) := rfl

theorem exec_push_room (hroom : s.slen.toNat < 256) : exec (.push imm8) s =
    .next (s.edited (s.secret.store 256 s.slen.toNat imm8) (s.slen + 1) s.ovf 0 s.pending) :=
  execPush_room (Nat.ne_of_lt hroom)

theorem exec_push_full (hfull : s.slen.toNat = 256) :
    exec (.push imm8) s = .next (s.edited s.secret s.slen true 10 s.pending) :=
  execPush_full hfull

theorem slen_succ_of_room {n : Word16} (hroom : n.toNat < 256) : (n + 1).toNat = n.toNat + 1 :=
  (slen_succ_toNat (Nat.le_of_lt hroom) (Nat.ne_of_lt hroom)).1

@[simp] theorem State.edited_secret : (s.edited secret slen ovf c rest).secret = secret := rfl
@[simp] theorem State.edited_slen : (s.edited secret slen ovf c rest).slen = slen := rfl
@[simp] theorem State.edited_ovf : (s.edited secret slen ovf c rest).ovf = ovf := rfl
@[simp] theorem State.edited_pending : (s.edited secret slen ovf c rest).pending = rest := rfl

/-- What `CLR` and `PUSH` clear and leave, whatever they write to the secret. -/
structure State.SecretEdit (s t : State) : Prop where
  clearedK : t.ClearedK
  clearedD : t.ClearedD
  clearedV : t.ClearedV
  clearedC : t.ClearedC
  sameConfig : s.SameConfig t
  sameM : s.SameM t

theorem edited_secretEdit : s.SecretEdit (s.edited secret slen ovf c rest) where
  clearedK := ⟨fun _ => rfl, rfl, rfl⟩
  clearedD := ⟨fun _ => rfl, rfl, rfl⟩
  clearedV := ⟨rfl, rfl, rfl⟩
  clearedC := ⟨rfl, fun _ => rfl, rfl⟩
  sameConfig := ⟨rfl, rfl, rfl, rfl⟩
  sameM := ⟨rfl, fun _ => rfl, rfl, rfl⟩

theorem edited_records : s.Records c (s.edited secret slen ovf c s.pending) :=
  ⟨rfl, rfl, rfl, rfl⟩

/-- Settles O16, from the shape of what `CLR` leaves. -/
theorem clrEmptiesSecret : Obligations.ClrEmptiesSecret := by
  refine ⟨decode_encode .clr, fun s => ⟨_, exec_clr_eq s, rfl, rfl, fun _ => rfl, ?_⟩⟩
  obtain ⟨hK, hD, hV, hC, hconfig, hM⟩ : s.SecretEdit (s.edited [] 0 false 0 s.pending) :=
    edited_secretEdit
  exact ⟨hK, hD, hV, hC, hconfig, hM, edited_records⟩

theorem decode_push (imm8 : Byte) : decode (0x2000 + imm8.setWidth 16) = .ok (.push imm8) :=
  encode_push imm8 ▸ decode_encode (.push imm8)

/-- Settles O17: where there is room the one byte stored is the one at `SLEN`; a full buffer is left as it was. -/
theorem pushAppendsOrOverflows : Obligations.PushAppendsOrOverflows := by
  intro imm8 s hwf hbound
  have hedit : ∀ secret slen ovf c, s.SecretEdit (s.edited secret slen ovf c s.pending) :=
    fun _ _ _ _ => edited_secretEdit
  refine ⟨decode_push imm8, ?_⟩
  by_cases hfull : s.slen.toNat = 256
  · obtain ⟨hK, hD, hV, hC, hconfig, hM⟩ := hedit s.secret s.slen true 10
    exact ⟨_, exec_push_full hfull, hK, hD, hV, hC, hconfig, hM,
      fun hroom => absurd hfull (Nat.ne_of_lt hroom),
      fun _ => ⟨rfl, rfl, fun _ => rfl, edited_records⟩⟩
  · have hroom : s.slen.toNat < 256 := Nat.lt_of_le_of_ne hbound hfull
    obtain ⟨hK, hD, hV, hC, hconfig, hM⟩ :=
      hedit (s.secret.store 256 s.slen.toNat imm8) (s.slen + 1) s.ovf 0
    exact ⟨_, exec_push_room hroom, hK, hD, hV, hC, hconfig, hM,
      fun _ => ⟨slen_succ_of_room hroom, rfl, Memory.read_store imm8 hwf hroom,
        fun _ hi => Memory.read_store_ne s.secret 256 imm8 (Ne.symm hi), edited_records⟩,
      fun h => absurd h hfull⟩

/-! ### Loading a text (R135) -/

theorem State.SecretEdit.trans (h : s.SecretEdit t) (h' : t.SecretEdit u) : s.SecretEdit u where
  clearedK := h'.clearedK
  clearedD := h'.clearedD
  clearedV := h'.clearedV
  clearedC := h'.clearedC
  sameConfig :=
    ⟨h'.sameConfig.alg.trans h.sameConfig.alg, h'.sameConfig.digits.trans h.sameConfig.digits,
      h'.sameConfig.period.trans h.sameConfig.period, h'.sameConfig.time.trans h.sameConfig.time⟩
  sameM :=
    ⟨h'.sameM.counter.trans h.sameM.counter, fun i => (h'.sameM.bytes i).trans (h.sameM.bytes i),
      h'.sameM.trem.trans h.sameM.trem, h'.sameM.mv.trans h.sameM.mv⟩

theorem step_clr (hp : s.pending = .cmd 0x1000 :: rest) :
    step s = .next (s.edited [] 0 false 0 rest) :=
  step_command hp (decode_encode .clr)

theorem step_push_room (hp : s.pending = .cmd (0x2000 + imm8.setWidth 16) :: rest)
    (hroom : s.slen.toNat < 256) : step s =
    .next (s.edited (s.secret.store 256 s.slen.toNat imm8) (s.slen + 1) s.ovf 0 rest) :=
  (step_command hp (decode_push imm8)).trans (exec_push_room hroom)

/-- `t` is `s` with the characters of `text` stored from `SECRET[SLEN]` on. -/
structure State.Appended (s : State) (text : List Byte) (t : State) : Prop where
  secret : t.secret = s.secret.storeBytes 256 s.slen.toNat text
  slen : t.slen.toNat = s.slen.toNat + text.length
  ovf : t.ovf = s.ovf

theorem appended_nil (s : State) : s.Appended [] s := ⟨rfl, rfl, rfl⟩

/-- One `PUSH`, and then the rest of the text. -/
theorem appended_cons (hroom : s.slen.toNat < 256)
    (h : (s.edited (s.secret.store 256 s.slen.toNat imm8) (s.slen + 1) s.ovf c rest).Appended text t) :
    s.Appended (imm8 :: text) t := by
  obtain ⟨hsecret, hslen, hovf⟩ := h
  refine ⟨?_, ?_, hovf.trans State.edited_ovf⟩
  · rw [hsecret, State.edited_secret, State.edited_slen, slen_succ_of_room hroom, Memory.storeBytes]
  · rw [hslen, State.edited_slen, slen_succ_of_room hroom, List.length_cons]
    omega

/-- A `PUSH` of each character of a text for which there is room, on a state `s` that an edit of `s₀` has left. -/
theorem run_pushes {s₀ : State} (hedit : s₀.SecretEdit s)
    (hp : s.pending = text.map (fun c => .cmd (0x2000 + c.setWidth 16)) ++ rest)
    (hroom : s.slen.toNat + text.length ≤ 256) :
    ∃ t, core.run text.length s = .next t ∧ s.Appended text t ∧ s₀.SecretEdit t ∧
      t.pending = rest := by
  induction text generalizing s with
  | nil => exact ⟨s, core_run_zero s, appended_nil s, hedit, hp⟩
  | cons imm8 text ih =>
    rw [List.length_cons] at hroom
    have hlt : s.slen.toNat < 256 := by omega
    have hroom' : (s.slen + 1).toNat + text.length ≤ 256 := by
      rw [slen_succ_of_room hlt]
      omega
    obtain ⟨t, hrun, happended, hedit', hrest⟩ := ih (hedit.trans edited_secretEdit) State.edited_pending hroom'
    exact ⟨t, (core_run_succ text.length (step_push_room hp hlt)).trans hrun,
      appended_cons hlt happended, hedit', hrest⟩

/-- Settles O19: the pushes append the text to the empty secret that `CLR` leaves. -/
theorem loadFillsSecret : Obligations.LoadFillsSecret := by
  intro s text rest hlength hp
  obtain ⟨t, hrun, ⟨hsecret, hslen, hovf⟩, ⟨hK, hD, hV, hC, hconfig, hM⟩, hrest⟩ :=
    run_pushes (edited_secretEdit (s := s) (secret := []) (slen := 0) (ovf := false) (c := 0))
      State.edited_pending
      (show 0 + text.length ≤ 256 by omega)
  have hread : ∀ i, t.secret.read i = text.getD i 0 := fun i =>
    (congrArg (Memory.read · i) hsecret).trans (Memory.read_storeBytes_nil text hlength i)
  exact ⟨t, (core_run_succ text.length (step_clr hp)).trans hrun, hslen.trans (Nat.zero_add _),
    hread, hovf, hK, hD, hV, hC, hconfig, hM, hrest⟩

end Sys2Proof.Machine
end

section
/-! SUPPORT. The commands `DEC` and `DECU` (41_base32_decoder.md R160 to R163): what they clear and what they write. -/

namespace Sys2Proof.Machine

variable {s : State} {fold : Bool} {key : List Byte}

/-- A failing decode edits no secret: it only clears what is computed from it (R162). -/
theorem decodeSecret_failed (h : s.ovf = true ∨ b32decode s.secretText fold = none) :
    decodeSecret fold s =
      s.edited s.secret s.slen s.ovf (if s.ovf then 10 else 1) s.pending := by
  by_cases hovf : s.ovf = true
  · rw [decodeSecret_overflow hovf, if_pos hovf]
    rfl
  · rw [decodeSecret_fail (eq_false_of_ne_true hovf) (h.resolve_left hovf), if_neg hovf]
    rfl

/-- Settles O22: a failing decode leaves the state of an edit that writes the secret back as it was. -/
theorem decodeFailureLeavesNoKey : Obligations.DecodeFailureLeavesNoKey := by
  intro s fold h
  obtain ⟨hK, hD, hV, hC, hconfig, hM⟩ :
      s.SecretEdit (s.edited s.secret s.slen s.ovf (if s.ovf then 10 else 1) s.pending) :=
    edited_secretEdit
  exact ⟨_, (exec_decodeCommand fold).trans (congrArg _ (decodeSecret_failed h)), hK, hD, hV, hC,
    hconfig, ⟨fun _ => rfl, rfl, rfl⟩, hM, edited_records⟩

/-- Settles O21: the decoded key fits its buffer, so all of it is written. -/
theorem decodeCommandsWriteKey : Obligations.DecodeCommandsWriteKey := by
  intro s fold key hovf hslen hkey
  have hlength : key.length ≤ 160 := length_key_le hkey hslen
  have hbytes : (s.clearK.putK key).key.Holds key := Memory.read_storeBytes_nil key hlength
  exact ⟨_, (exec_decodeCommand fold).trans (congrArg _ (decodeSecret_key hovf hkey)),
    rfl, putK_klen_toNat (s := s.clearK) hlength, hbytes,
    ⟨fun _ => rfl, rfl, rfl⟩, ⟨rfl, rfl, rfl⟩, ⟨rfl, fun _ => rfl, rfl⟩,
    ⟨rfl, rfl, rfl, rfl⟩, ⟨fun _ => rfl, rfl, rfl⟩, ⟨rfl, fun _ => rfl, rfl, rfl⟩,
    ⟨rfl, rfl, rfl, rfl⟩⟩

end Sys2Proof.Machine
end

section
/-! SUPPORT. The characters of a text under the decoder (41_base32_decoder.md R152 to R154): folding, padding, and
which character fails it. -/

namespace Sys2Proof.Machine

variable {fold : Bool} {acc nbits : Nat}

/-- A character as the command reads it: folded for `DECU`, as it is for `DEC` (R151). -/
def foldChar (fold : Bool) (c : Byte) : Byte := if fold then upcase c else c

theorem folded_eq_map (fold : Bool) (chars : List Byte) :
    (if fold then chars.map upcase else chars) = chars.map (foldChar fold) := by
  cases fold with
  | false => exact (List.map_id chars).symm
  | true => rfl

theorem b32decode_eq_b32pack (chars : List Byte) (fold : Bool) :
    b32decode chars fold = b32pack 0 0 (chars.map (foldChar fold)) :=
  congrArg _ (folded_eq_map fold chars)

theorem foldChar_eq_padChar (fold : Bool) (c : Byte) : foldChar fold c = padChar ↔ c = padChar := by
  cases fold with
  | false => exact Iff.rfl
  | true => exact upcase_eq_padChar c

theorem filter_map_foldChar (fold : Bool) (chars : List Byte) :
    (chars.map (foldChar fold)).filter (· != padChar) =
      (chars.filter (· != padChar)).map (foldChar fold) := by
  have hpad : ((· != padChar) ∘ foldChar fold) = (· != padChar) := by
    funext c
    rw [Function.comp_apply, Bool.eq_iff_iff, bne_iff_ne, bne_iff_ne, Ne, foldChar_eq_padChar]
  rw [List.filter_map, hpad]

/-- The three stages a character can end at: skipped (R153), refused (R154), or its value taken (R155). -/
theorem text_induction {P : List Byte → Prop} (nil : P [])
    (padding : ∀ rest, P rest → P (padChar :: rest))
    (bad : ∀ c rest, c ≠ padChar → b32val c = none → P rest → P (c :: rest))
    (value : ∀ c v rest, b32val c = some v → P rest → P (c :: rest)) (chars : List Byte) :
    P chars := by
  induction chars with
  | nil => exact nil
  | cons c rest ih =>
    by_cases hp : c = padChar
    · exact hp ▸ padding rest ih
    cases hv : b32val c with
    | none => exact bad c rest hp hv ih
    | some v => exact value c v rest hv ih

theorem b32pack_filter (chars : List Byte) :
    b32pack acc nbits (chars.filter (· != padChar)) = b32pack acc nbits chars := by
  induction chars using text_induction generalizing acc nbits with
  | nil => rfl
  | padding rest ih => rw [List.filter_cons_of_neg (by simp), ih, b32pack_padChar]
  | bad c rest hp hv _ =>
    rw [List.filter_cons_of_pos (by simpa using hp), b32pack_bad _ _ _ hp hv,
      b32pack_bad _ _ _ hp hv]
  | value c v rest hv ih =>
    rw [List.filter_cons_of_pos (by simpa using ne_padChar_of_b32val hv), b32pack_value _ _ _ hv,
      b32pack_value _ _ _ hv, ih, ih]

/-- Settles O25: the packer skips padding, and folding neither makes nor removes any. -/
theorem paddingIsSkippedAnywhere : Obligations.PaddingIsSkippedAnywhere := by
  intro chars fold
  change _ = b32decode (chars.filter (· != padChar)) fold
  rw [b32decode_eq_b32pack, b32decode_eq_b32pack, ← filter_map_foldChar, b32pack_filter]

/-- The packer fails exactly on a character that is neither padding nor in the alphabet (R154). -/
theorem b32pack_eq_none_iff {chars : List Byte} : b32pack acc nbits chars = none ↔
    ∃ c ∈ chars, c ≠ padChar ∧ b32val c = none := by
  induction chars using text_induction generalizing acc nbits with
  | nil => simp
  | padding rest ih => simp [ih]
  | bad c rest hp hv _ => simp [b32pack_bad acc nbits rest hp hv, hp, hv]
  | value c v rest hv ih =>
    rw [b32pack_value acc nbits rest hv]
    split <;> simp [ih, hv]

/-- Settles O26, by the characters that fail the packer. -/
theorem decodeFailsOnBadCharacter : Obligations.DecodeFailsOnBadCharacter := by
  intro chars fold
  rw [b32decode_eq_b32pack, b32pack_eq_none_iff]
  constructor
  · rintro ⟨_, hmem, hbad⟩
    obtain ⟨c, hc, rfl⟩ := List.mem_map.mp hmem
    exact ⟨c, hc, hbad⟩
  · rintro ⟨c, hc, hbad⟩
    exact ⟨foldChar fold c, List.mem_map_of_mem hc, hbad⟩

/-- Settles O27: folding is the fold of each character, which is the character itself outside `a` to `z`. -/
theorem foldingTouchesOnlyLowerCase : Obligations.FoldingTouchesOnlyLowerCase := by
  refine ⟨fun chars => rfl, fun chars hother => ?_⟩
  have hfold : chars.map upcase = chars :=
    (List.map_congr_left fun c hc => if_neg (hother c hc)).trans (List.map_id chars)
  rw [b32decode_true, b32decode_false, hfold]

end Sys2Proof.Machine
end

section
/-! SUPPORT. A sequence of equal groups of bits as one number, and the whole bytes of such a number: what the re-packer
computes (41_base32_decoder.md R155 to R159). -/

namespace Sys2Proof.Machine

variable {width acc t n q r : Nat} {groups : List Nat}

/-! ### Groups of bits laid end to end -/

/-- The number whose bits are those of `acc` and then `width` for each of the groups, most significant first. -/
def joinBits (width acc : Nat) (groups : List Nat) : Nat :=
  groups.foldl (fun number group => number * 2 ^ width + group) acc

@[simp] theorem joinBits_nil : joinBits width acc [] = acc := rfl

@[simp] theorem joinBits_cons (group : Nat) : joinBits width acc (group :: groups) =
    joinBits width (acc * 2 ^ width + group) groups := rfl

/-- What stands before the groups moves up by their bits. -/
theorem joinBits_add (t q r : Nat) : joinBits width (q * 2 ^ t + r) groups =
    q * 2 ^ (t + width * groups.length) + joinBits width r groups := by
  induction groups generalizing t r with
  | nil => rfl
  | cons group groups ih =>
    have hshift : (q * 2 ^ t + r) * 2 ^ width + group =
        q * 2 ^ (t + width) + (r * 2 ^ width + group) := by
      rw [Nat.pow_add, Nat.add_mul, Nat.mul_assoc, Nat.add_assoc]
    rw [joinBits_cons, joinBits_cons, hshift, ih, List.length_cons, Nat.mul_succ,
      Nat.add_right_comm t width, Nat.add_assoc t]

/-- What stood above bit `t` of `acc` stands above the groups and the `t` bits. -/
theorem joinBits_div_mod (acc t : Nat) : joinBits width acc groups =
    acc / 2 ^ t * 2 ^ (t + width * groups.length) + joinBits width (acc % 2 ^ t) groups := by
  rw [← joinBits_add, Nat.div_add_mod']

theorem joinBits_lt (hgroups : ∀ group ∈ groups, group < 2 ^ width) (hacc : acc < 2 ^ t) :
    joinBits width acc groups < 2 ^ (t + width * groups.length) := by
  induction groups generalizing t acc with
  | nil => exact hacc
  | cons group groups ih =>
    obtain ⟨hgroup, hrest⟩ := List.forall_mem_cons.mp hgroups
    have hnext : acc * 2 ^ width + group < 2 ^ (t + width) :=
      calc acc * 2 ^ width + group < (acc + 1) * 2 ^ width := by rw [Nat.succ_mul]; omega
        _ ≤ 2 ^ t * 2 ^ width := Nat.mul_le_mul_right _ hacc
        _ = 2 ^ (t + width) := (Nat.pow_add ..).symm
    rw [joinBits_cons, List.length_cons, Nat.mul_succ, Nat.add_comm _ width, ← Nat.add_assoc]
    exact ih hrest hnext

/-- The first group stands above all the others. -/
theorem joinBits_zero_cons (group : Nat) : joinBits width 0 (group :: groups) =
    group * 2 ^ (width * groups.length) + joinBits width 0 groups := by
  simpa using joinBits_add 0 group 0

theorem joinBits_zero_lt (hgroups : ∀ group ∈ groups, group < 2 ^ width) :
    joinBits width 0 groups < 2 ^ (width * groups.length) := by
  simpa using joinBits_lt (t := 0) hgroups Nat.one_pos

/-- Bit `i` of the five-bit groups laid end to end, most significant first (R159). -/
theorem testBit_joinBits {values : List Nat} (hvalues : ∀ v ∈ values, v < 2 ^ 5) {i : Nat}
    (hi : i < 5 * values.length) :
    (joinBits 5 0 values).testBit (5 * values.length - 1 - i) = valueBit values i := by
  induction values generalizing i with
  | nil => simp at hi
  | cons v values ih =>
    obtain ⟨-, hrest⟩ := List.forall_mem_cons.mp hvalues
    rw [List.length_cons] at hi ⊢
    rw [joinBits_zero_cons, Nat.mul_comm v, Nat.testBit_two_pow_mul_add _ (joinBits_zero_lt hrest)]
    by_cases hfirst : i < 5
    · rw [if_neg (by omega), valueBit, Nat.div_eq_of_lt hfirst, Nat.mod_eq_of_lt hfirst]
      congr 1
      omega
    · obtain ⟨k, rfl⟩ := Nat.exists_eq_add_of_le' (Nat.not_lt.mp hfirst)
      rw [if_pos (by omega), show 5 * (values.length + 1) - 1 - (k + 5) = 5 * values.length - 1 - k by omega,
        ih hrest (by omega), valueBit, valueBit, Nat.add_div_right _ (by omega), Nat.add_mod_right]
      rfl

/-! ### The bytes of a number -/

/-- A byte in front is eight more bits above. -/
theorem beBytes_succ (hr : r < 2 ^ (8 * n)) :
    beBytes (n + 1) (q * 2 ^ (8 * n) + r) = BitVec.ofNat 8 q :: beBytes n r := by
  simp only [beBytes, List.range_succ_eq_map, List.map_cons, List.map_map, Nat.mul_comm q]
  congr 1
  · rw [Nat.shiftRight_eq_div_pow, Nat.add_sub_cancel, Nat.sub_zero,
      Nat.mul_add_div (Nat.two_pow_pos _), Nat.div_eq_of_lt hr, Nat.add_zero]
  · refine List.map_congr_left fun i hi => BitVec.eq_of_getLsbD_eq fun b hb => ?_
    rw [List.mem_range] at hi
    simp only [Function.comp_apply, BitVec.getLsbD_ofNat, Nat.testBit_shiftRight,
      Nat.testBit_two_pow_mul_add _ hr]
    rw [if_pos (by omega), show n + 1 - 1 - i.succ = n - 1 - i by omega]

/-- The bytes of a byte string laid end to end are the byte string. -/
theorem beBytes_joinBits (bytes : List Byte) :
    beBytes bytes.length (joinBits 8 0 (bytes.map BitVec.toNat)) = bytes := by
  induction bytes with
  | nil => rfl
  | cons b bytes ih =>
    have hbytes : ∀ v ∈ bytes.map BitVec.toNat, v < 2 ^ 8 :=
      List.forall_mem_map.mpr fun b _ => b.isLt
    have hlow := joinBits_zero_lt hbytes
    rw [List.length_map] at hlow
    rw [List.map_cons, joinBits_zero_cons, List.length_map, List.length_cons, beBytes_succ hlow, ih,
      BitVec.ofNat_toNat, BitVec.setWidth_eq]

/-- The bytes that `t` bits of `number` fill, most significant first; the last `t % 8` bits are dropped (R158). -/
def wholeBytes (t number : Nat) : List Byte := beBytes (t / 8) (number >>> (t % 8))

theorem length_wholeBytes (t number : Nat) : (wholeBytes t number).length = t / 8 :=
  length_beBytes ..

theorem wholeBytes_of_lt (number : Nat) (ht : t < 8) : wholeBytes t number = [] := by
  rw [wholeBytes, Nat.div_eq_of_lt ht]
  rfl

/-- The eight bits above the last `t` are a byte of their own (R155). -/
theorem wholeBytes_add (hr : r < 2 ^ t) :
    wholeBytes (8 + t) (q * 2 ^ t + r) = BitVec.ofNat 8 q :: wholeBytes t r := by
  have ht : 2 ^ t = 2 ^ (t % 8) * 2 ^ (8 * (t / 8)) := by rw [← Nat.pow_add, Nat.mod_add_div]
  have hlow : r >>> (t % 8) < 2 ^ (8 * (t / 8)) := by
    rw [Nat.shiftRight_eq_div_pow]
    exact Nat.div_lt_of_lt_mul (ht ▸ hr)
  have hshift : (q * 2 ^ t + r) >>> (t % 8) = q * 2 ^ (8 * (t / 8)) + r >>> (t % 8) := by
    rw [Nat.shiftRight_eq_div_pow, Nat.shiftRight_eq_div_pow, ht, Nat.mul_left_comm,
      Nat.mul_add_div (Nat.two_pow_pos _)]
  rw [wholeBytes, Nat.add_div_left t (by decide), Nat.add_mod_left, hshift, beBytes_succ hlow, wholeBytes]

/-- Fewer than eight bits of fill below whole bytes are dropped. -/
theorem wholeBytes_fill (n number : Nat) {fill : Nat} (hfill : fill < 8) :
    wholeBytes (8 * n + fill) (number * 2 ^ fill) = beBytes n number := by
  rw [wholeBytes, Nat.mul_add_div (by decide), Nat.div_eq_of_lt hfill, Nat.mul_add_mod,
    Nat.mod_eq_of_lt hfill, Nat.add_zero, Nat.shiftRight_eq_div_pow,
    Nat.mul_div_cancel _ (Nat.two_pow_pos _)]

/-- Bit `7 - b` of byte `j` is the bit at place `8 j + b` from the top (R159). -/
theorem getLsbD_wholeBytes (number : Nat) {j b : Nat} (hj : j < t / 8) (hb : b ≤ 7) :
    ((wholeBytes t number).getD j 0).getLsbD (7 - b) = number.testBit (t - 1 - (8 * j + b)) := by
  rw [wholeBytes, getD_beBytes _ hj, BitVec.getLsbD_ofNat, Nat.testBit_shiftRight,
    Nat.testBit_shiftRight, decide_eq_true (by omega), Bool.true_and]
  congr 1
  omega

end Sys2Proof.Machine
end

section
/-! SUPPORT. The re-packer as a function of the text's values (41_base32_decoder.md R155 to R159), and the RFC 4648
encoder it inverts (R167). -/

namespace Sys2Proof.Machine

variable {acc nbits t n q r fill : Nat} {key chars text : List Byte} {fold : Bool}

/-! ### The values of a text -/

/-- The values of the characters of a text that are not padding, in order (R159). -/
def textValues (chars : List Byte) : List Nat :=
  (chars.filter (· != padChar)).map fun c => (b32val c).getD 0

theorem textValues_padding (rest : List Byte) : textValues (padChar :: rest) = textValues rest := by
  rw [textValues, List.filter_cons_of_neg (by simp), textValues]

theorem textValues_value {c : Byte} {v : Nat} (rest : List Byte) (hv : b32val c = some v) :
    textValues (c :: rest) = v :: textValues rest := by
  rw [textValues, List.filter_cons_of_pos (by simpa using ne_padChar_of_b32val hv), List.map_cons, hv,
    Option.getD_some, textValues]

theorem textValues_lt (chars : List Byte) : ∀ v ∈ textValues chars, v < 2 ^ 5 := by
  refine List.forall_mem_map.mpr fun c _ => ?_
  cases hv : b32val c with
  | none => exact Nat.two_pow_pos 5
  | some v => exact b32val_lt hv

theorem textValues_append_padding (chars : List Byte) (pads : Nat) :
    textValues (chars ++ List.replicate pads padChar) = textValues chars := by
  have hpads : (List.replicate pads padChar).filter (· != padChar) = [] :=
    List.filter_replicate_of_neg (by simp)
  rw [textValues, List.filter_append, hpads, List.append_nil, textValues]

/-! ### The re-packer (R155 to R159) -/

/-- The packer lays the values end to end after the bits carried in, and emits the whole bytes. -/
theorem b32pack_eq_wholeBytes (hnbits : nbits < 8) (h : b32pack acc nbits chars = some key) :
    key = wholeBytes (nbits + 5 * (textValues chars).length) (joinBits 5 acc (textValues chars)) := by
  induction chars using text_induction generalizing acc nbits key with
  | nil =>
    cases h
    exact (wholeBytes_of_lt _ hnbits).symm
  | padding rest ih =>
    rw [textValues_padding]
    exact ih hnbits (b32pack_padChar acc nbits rest ▸ h)
  | bad c rest hp hv _ => rw [b32pack_bad acc nbits rest hp hv] at h; cases h
  | value c v rest hv ih =>
    rw [b32pack_value acc nbits rest hv] at h
    rw [textValues_value rest hv, joinBits_cons, List.length_cons, show 2 ^ 5 = 32 from rfl]
    split at h
    next hfull =>
      obtain ⟨tail, htail, rfl⟩ := Option.map_eq_some_iff.mp h
      have hlow : joinBits 5 ((acc * 32 + v) % 2 ^ (nbits - 3)) (textValues rest) <
          2 ^ (nbits - 3 + 5 * (textValues rest).length) :=
        joinBits_lt (textValues_lt rest) (Nat.mod_lt _ (Nat.two_pow_pos _))
      rw [show nbits + 5 * ((textValues rest).length + 1) =
          8 + (nbits - 3 + 5 * (textValues rest).length) by omega,
        joinBits_div_mod (acc * 32 + v) (nbits - 3), wholeBytes_add hlow, ← ih (by omega) htail]
    next hroom =>
      rw [show nbits + 5 * ((textValues rest).length + 1) =
        nbits + 5 + 5 * (textValues rest).length by omega]
      exact ih (by omega) h

/-- A decode gives the whole bytes of the values of the text as the command reads it. -/
theorem b32decode_eq_wholeBytes (h : b32decode chars fold = some key) :
    key = wholeBytes (5 * (textValues (chars.map (foldChar fold))).length)
      (joinBits 5 0 (textValues (chars.map (foldChar fold)))) := by
  rw [b32decode_eq_b32pack] at h
  simpa using b32pack_eq_wholeBytes (by decide) h

/-- Settles O24: folding leaves the number of characters that are not padding. -/
theorem decoderOutputLength : Obligations.DecoderOutputLength := by
  intro chars fold key h
  rw [b32decode_eq_wholeBytes h, length_wholeBytes, textValues, filter_map_foldChar, List.length_map,
    List.length_map, Nat.mul_comm]
  rfl

/-- Settles O28: a bit of a whole byte is a bit of the values laid end to end. -/
theorem decoderClosedForm : Obligations.DecoderClosedForm := by
  intro chars fold key h j b hj hb
  have hkey := b32decode_eq_wholeBytes h
  rw [hkey, length_wholeBytes] at hj
  rw [hkey, getLsbD_wholeBytes _ hj hb, testBit_joinBits (textValues_lt _) (by omega), folded_eq_map]
  rfl

/-! ### The round trip (R167) -/

theorem b32val_alphabetChar (hq : q < 32) : b32val (alphabetChar q) = some q := by
  obtain ⟨hletters, hdigits, -⟩ := alphabetValues
  unfold alphabetChar
  split
  next hletter => exact hletters q hletter
  next hdigit => exact hdigits q (Nat.not_lt.mp hdigit) hq

/-- `text` has no padding, and its values laid end to end are the `t`-bit number `n` with `fill` zero bits after it,
the fewest that complete a group. -/
structure Spells (t n : Nat) (text : List Byte) (fill : Nat) : Prop where
  inAlphabet : ∀ c ∈ text, b32val c ≠ none
  fill_lt : fill < 5
  bits : 5 * (textValues text).length = t + fill
  number : joinBits 5 0 (textValues text) = n * 2 ^ fill

/-- The character of a group in front of a text. -/
theorem Spells.cons (h : Spells t n text fill) (hq : q < 32) :
    Spells (t + 5) (q * 2 ^ t + n) (alphabetChar q :: text) fill := by
  obtain ⟨halphabet, hfill, hbits, hnumber⟩ := h
  have hq' := b32val_alphabetChar hq
  refine ⟨List.forall_mem_cons.mpr ⟨by simp [hq'], halphabet⟩, hfill, ?_, ?_⟩
  · rw [textValues_value text hq', List.length_cons]
    omega
  · rw [textValues_value text hq', joinBits_zero_cons, hbits, hnumber, Nat.pow_add,
      Nat.add_mul, Nat.mul_assoc]

/-- With no bits left the text ends; fewer than a group of them take one character, filled with zeros. -/
theorem b32encode_nil_spells (hnbits : nbits < 5) (hacc : acc < 2 ^ nbits) :
    ∃ fill, Spells nbits acc (b32encode acc nbits []) fill := by
  rw [b32encode]
  split
  next hnone =>
    subst hnone
    exact ⟨0, nofun, by decide, rfl, (Nat.lt_one_iff.mp hacc).symm ▸ rfl⟩
  next hsome =>
    have hlt : acc * 2 ^ (5 - nbits) < 32 :=
      calc acc * 2 ^ (5 - nbits) < 2 ^ nbits * 2 ^ (5 - nbits) :=
            Nat.mul_lt_mul_of_pos_right hacc (Nat.two_pow_pos _)
        _ = 32 := by rw [← Nat.pow_add, Nat.add_sub_cancel' (Nat.le_of_lt hnbits)]
    have hv := b32val_alphabetChar hlt
    rw [Nat.shiftLeft_eq, Nat.mod_eq_of_lt hlt]
    refine ⟨5 - nbits, by simp [hv], by omega, ?_, ?_⟩ <;> rw [textValues_value [] hv]
    · show 5 = nbits + (5 - nbits)
      omega
    · exact Nat.zero_add _

/-- A byte after less than two bits completes one group. -/
theorem b32encode_one_group (b : Byte) (bytes : List Byte) (h : nbits < 2) :
    b32encode acc nbits (b :: bytes) = alphabetChar ((acc * 256 + b.toNat) >>> (nbits + 3) % 32) ::
      b32encode ((acc * 256 + b.toNat) % 2 ^ (nbits + 3)) (nbits + 3) bytes := by
  rw [b32encode]
  exact if_pos (by omega)

/-- A byte after two bits or more completes two groups. -/
theorem b32encode_two_groups (b : Byte) (bytes : List Byte) (k : Nat) :
    b32encode acc (k + 2) (b :: bytes) = alphabetChar ((acc * 256 + b.toNat) >>> (k + 5) % 32) ::
      alphabetChar ((acc * 256 + b.toNat) >>> k % 32) ::
      b32encode ((acc * 256 + b.toNat) % 2 ^ k) k bytes := by
  rw [b32encode]
  exact if_neg (by omega)

/-- The encoder writes the five bits of `acc` above the `t` it keeps. -/
theorem Spells.group {groups : List Nat}
    (h : Spells (t + 8 * groups.length) (joinBits 8 (acc % 2 ^ t) groups) text fill) :
    Spells (t + 5 + 8 * groups.length) (joinBits 8 (acc % 2 ^ (t + 5)) groups)
      (alphabetChar (acc >>> t % 32) :: text) fill := by
  have hgroup : acc % 2 ^ (t + 5) = acc >>> t % 32 * 2 ^ t + acc % 2 ^ t := by
    rw [Nat.pow_add, Nat.mod_mul, Nat.shiftRight_eq_div_pow, Nat.add_comm, Nat.mul_comm]
  rw [hgroup, joinBits_add, Nat.add_right_comm]
  exact h.cons (Nat.mod_lt _ (by decide))

/-- The encoder spells the bits it carries and then its bytes. -/
theorem b32encode_spells (hnbits : nbits < 5) (hacc : acc < 2 ^ nbits) (bytes : List Byte) :
    ∃ fill, Spells (nbits + 8 * (bytes.map BitVec.toNat).length)
      (joinBits 8 acc (bytes.map BitVec.toNat)) (b32encode acc nbits bytes) fill := by
  induction bytes generalizing acc nbits with
  | nil => exact b32encode_nil_spells hnbits hacc
  | cons b bytes ih =>
    have hnext : acc * 256 + b.toNat < 2 ^ (nbits + 8) := by
      rw [Nat.pow_add]
      omega
    have hkept : ∀ t, t < 5 → ∃ fill, Spells (t + 8 * (bytes.map BitVec.toNat).length)
        (joinBits 8 ((acc * 256 + b.toNat) % 2 ^ t) (bytes.map BitVec.toNat))
        (b32encode ((acc * 256 + b.toNat) % 2 ^ t) t bytes) fill :=
      fun t ht => ih ht (Nat.mod_lt _ (Nat.two_pow_pos t))
    have hnumber : joinBits 8 acc ((b :: bytes).map BitVec.toNat) =
        joinBits 8 ((acc * 256 + b.toNat) % 2 ^ (nbits + 8)) (bytes.map BitVec.toNat) := by
      rw [Nat.mod_eq_of_lt hnext]
      rfl
    rw [hnumber, List.map_cons, List.length_cons, Nat.mul_succ, Nat.add_comm _ 8, ← Nat.add_assoc]
    by_cases hone : nbits < 2
    · rw [b32encode_one_group b bytes hone]
      obtain ⟨fill, hrest⟩ := hkept (nbits + 3) (by omega)
      exact ⟨fill, hrest.group⟩
    · obtain ⟨k, rfl⟩ := Nat.exists_eq_add_of_le' (Nat.not_lt.mp hone)
      rw [b32encode_two_groups b bytes k]
      obtain ⟨fill, hrest⟩ := hkept k (by omega)
      exact ⟨fill, hrest.group.group⟩

/-- Settles O29: the encoder spells the bytes, and the decoder takes the whole bytes back, without the fill. -/
theorem decodeInvertsRfcEncoder : Obligations.DecodeInvertsRfcEncoder := by
  intro bytes pads
  obtain ⟨fill, halphabet, hfill, hbits, hnumber⟩ :=
    b32encode_spells (acc := 0) (nbits := 0) (by decide) Nat.one_pos bytes
  have hdecodes : b32pack 0 0 (b32encode 0 0 bytes ++ List.replicate pads padChar) ≠ none := by
    rw [Ne, b32pack_eq_none_iff]
    rintro ⟨c, hc, hpad, hnone⟩
    rcases List.mem_append.mp hc with hc | hc
    · exact halphabet c hc hnone
    · exact hpad (List.eq_of_mem_replicate hc)
  obtain ⟨key, hkey⟩ := Option.ne_none_iff_exists'.mp hdecodes
  have hbytes := b32pack_eq_wholeBytes (by decide) hkey
  rw [textValues_append_padding, hbits, hnumber, Nat.zero_add, Nat.zero_add,
    wholeBytes_fill _ _ (by omega), List.length_map, beBytes_joinBits] at hbytes
  exact hkey.trans (congrArg some hbytes)

end Sys2Proof.Machine
end

section
/-! SUPPORT. The time counter (42_time_counter.md R182 to R187): the quotient and the remainder as numbers, the message's
bytes, and what both ends of `CTR` clear and keep. -/

namespace Sys2Proof.Machine

variable {s t : State} {period : Word32} {time counter : Word64} {trem : Word32}

/-- A period is rejected where it is zero or its sign bit is set (R183). -/
theorem period_nonpos_iff : period.toInt ≤ 0 ↔ period = 0 ∨ 2 ^ 31 ≤ period.toNat := by
  have hlt : period.toNat < 2 ^ 32 := period.isLt
  have hzero : (0 : Word32).toNat = 0 := rfl
  rw [BitVec.toInt_eq_toNat_cond, ← BitVec.toNat_inj]
  split <;> omega

/-- A positive period gives the counter and the seconds remaining as numbers (R184, R186). -/
theorem timeStep_of_pos {p : Nat} (hp : period.toInt = (p : Int)) (hpos : 0 < p) :
    ∃ counter trem, timeStep time period = some (counter, trem) ∧
      counter.toNat = time.toNat / p ∧ trem.toNat = p - time.toNat % p := by
  have htime := timeStep_some (time := time) (hp ▸ Int.natCast_pos.mpr hpos)
  obtain ⟨-, hcounter, htrem⟩ := timeStep_eq_some htime
  rw [hp, Int.toNat_natCast] at htime hcounter htrem
  exact ⟨_, _, htime, hcounter, htrem⟩

/-- Group M leaves valid only where the period is positive, and holds the time step (R41). -/
theorem timeStep_of_exec_ctr (h : exec .ctr s = .next t) (hmv : t.mv = true) :
    timeStep s.time s.period = some (t.counter, t.trem) := by
  cases htime : timeStep s.time s.period with
  | none =>
    cases (execCtr_none htime).symm.trans h
    cases hmv
  | some step =>
    cases (execCtr_some htime).symm.trans h
    rfl

/-- Byte `i` of `be_n(v)` as a number (R12). -/
theorem toNat_getD_beBytes {n i : Nat} (v : Nat) (h : i < n) :
    ((beBytes n v).getD i 0).toNat = v / 2 ^ (8 * (n - 1 - i)) % 256 := by
  rw [getD_beBytes v h, BitVec.toNat_ofNat, Nat.shiftRight_eq_div_pow]

/-- The message is the counter, most significant byte first, and 0x00 after it (R185). -/
theorem putM_msg_holds (s : State) (counter : Word64) (trem : Word32) :
    (s.clearM.putM counter trem).msg.Holds (beBytes 8 counter.toNat) :=
  Memory.read_storeBytes_nil (beBytes 8 counter.toNat) (Nat.le_of_eq (length_beBytes ..))

/-- What both ends of `CTR` clear, keep and record, whatever they leave in group M (R182). -/
theorem ctr_frame {msg : Memory} {mv : Bool} {c : BitVec 4}
    (ht : t = State.complete { s.clearM with counter, msg, trem, mv } c) :
    t.ClearedD ∧ t.ClearedV ∧ t.ClearedC ∧ s.SameConfig t ∧ s.SameSecret t ∧ s.SameK t ∧
      s.Records c t := by
  subst ht
  exact ⟨⟨fun _ => rfl, rfl, rfl⟩, ⟨rfl, rfl, rfl⟩, ⟨rfl, fun _ => rfl, rfl⟩, ⟨rfl, rfl, rfl, rfl⟩,
    ⟨fun _ => rfl, rfl, rfl⟩, ⟨fun _ => rfl, rfl, rfl⟩, ⟨rfl, rfl, rfl, rfl⟩⟩

/-- Settles O30: the quotient is below 2^64, so its eight bytes are the message. -/
theorem ctrWritesTimeStep : Obligations.CtrWritesTimeStep := by
  intro s p hp hpos
  obtain ⟨counter, trem, htime, hcounter, htrem⟩ := timeStep_of_pos (time := s.time) hp hpos
  have hmsg : (s.clearM.putM counter trem).msg.Holds (beBytes 8 (s.time.toNat / p)) :=
    hcounter ▸ putM_msg_holds s counter trem
  have hlength : (beBytes 8 counter.toNat).length = 8 := length_beBytes ..
  refine ⟨_, execCtr_some htime, rfl, hcounter, fun i hi => ?_, fun i hi => ?_, htrem, ctr_frame rfl⟩
  · exact (congrArg BitVec.toNat (hmsg i)).trans (toNat_getD_beBytes _ hi)
  · exact read_storeBytes_beyond (Nat.le_of_eq hlength) (Nat.le_trans (Nat.le_of_eq hlength) hi)

/-- Settles O31: the rejected periods are those that are not positive. -/
theorem ctrRejectsPeriod : Obligations.CtrRejectsPeriod := fun _ hperiod =>
  ⟨_, execCtr_none (timeStep_none (period_nonpos_iff.mpr hperiod)), ⟨rfl, fun _ => rfl, rfl, rfl⟩,
    ctr_frame rfl⟩

/-- Settles O32: the remainder of a division by the period lies below the period. -/
theorem secondsRemainingRange : Obligations.SecondsRemainingRange := by
  intro s t h hmv
  obtain ⟨hpos, hcounter, htrem⟩ := timeStep_eq_some (timeStep_of_exec_ctr h hmv)
  obtain ⟨p, hp⟩ := Int.eq_ofNat_of_zero_le (Int.le_of_lt hpos)
  rw [hp] at hpos hcounter htrem ⊢
  rw [Int.toNat_natCast] at hcounter htrem
  have hlt : s.time.toNat % p < p := Nat.mod_lt _ (Int.natCast_pos.mp hpos)
  have hdivision : t.counter.toNat * p + s.time.toNat % p = s.time.toNat := by
    rw [hcounter, Nat.div_add_mod']
  rw [← Int.natCast_emod, ← Int.natCast_mul]
  omega

end Sys2Proof.Machine
end

section
/-! SUPPORT. HMAC and `MAC` (43_hmac.md R201 to R205): the padded key's forms, and what both ends of `MAC` clear and
keep. -/

namespace Sys2Proof.Machine

/-! ### The key's forms (R204, R205) -/

section
variable {a : Algorithm} {key : List Byte}

/-- A key of at most one block is filled with zeros (R204). -/
theorem hmacPaddedKey_of_le (h : key.length ≤ a.blockSize) :
    hmacPaddedKey a key = key ++ List.replicate (a.blockSize - key.length) 0x00 := by
  simp only [hmacPaddedKey, if_neg (Nat.not_lt.mpr h)]

/-- A key longer than a block acts as its hash, which fits a block (R205). -/
theorem hmacPaddedKey_of_gt (h : a.blockSize < key.length) :
    hmacPaddedKey a key = hmacPaddedKey a (a.hash key) := by
  have hfits : (a.hash key).length ≤ a.blockSize := by
    rw [Algorithm.length_hash]
    exact a.digestLength_le_blockSize
  rw [hmacPaddedKey_of_le hfits]
  simp only [hmacPaddedKey, if_pos h]

/-- A zero after a key that leaves room in the block is one of the zeros that fill it (R204). -/
theorem hmacPaddedKey_append_zero (h : key.length < a.blockSize) :
    hmacPaddedKey a (key ++ [0x00]) = hmacPaddedKey a key := by
  have hlength : (key ++ [(0x00 : Byte)]).length = key.length + 1 := List.length_append
  have hfill : a.blockSize - key.length = a.blockSize - (key.length + 1) + 1 := by omega
  rw [hmacPaddedKey_of_le (Nat.le_of_lt h), hmacPaddedKey_of_le (by omega), hlength, hfill,
    List.replicate_succ, List.append_assoc, List.singleton_append]

/-- The HMAC reads the key through its padded form alone (R204). -/
theorem hmac_congr {key' : List Byte} (h : hmacPaddedKey a key = hmacPaddedKey a key')
    (msg : List Byte) : hmac a key msg = hmac a key' msg := by
  simp only [hmac, h]

end

/-- The hash function and the block size of each `ALG` code (R203, R108). -/
theorem hash_blockSize_of_code {alg : BitVec 2} {H : List Byte → List Byte} {B : Nat}
    (h : (alg = 0 ∧ H = sha1 ∧ B = 64) ∨ (alg = 1 ∧ H = sha256 ∧ B = 64) ∨
      (alg = 2 ∧ H = sha512 ∧ B = 128) ∨ (alg = 3 ∧ H = md5 ∧ B = 64)) :
    H = (algorithmOf alg).hash ∧ B = (algorithmOf alg).blockSize := by
  obtain ⟨rfl, rfl, rfl⟩ | ⟨rfl, rfl, rfl⟩ | ⟨rfl, rfl, rfl⟩ | ⟨rfl, rfl, rfl⟩ := h <;>
    exact ⟨rfl, rfl⟩

/-- Settles O36: the three forms are equalities of the padded key. -/
theorem hmacKeyForms : Obligations.HmacKeyForms := by
  intro alg H B key msg hcode
  obtain ⟨rfl, rfl⟩ := hash_blockSize_of_code hcode
  refine ⟨fun hle => ?_, fun hgt => hmac_congr (hmacPaddedKey_of_gt hgt) msg,
    fun hlt => hmac_congr (hmacPaddedKey_append_zero hlt) msg⟩
  rw [← hmacPaddedKey_of_le hle]
  rfl

/-- Settles O35: the outer hash is what is returned. -/
theorem hmacDigestLength : Obligations.HmacDigestLength := fun _ _ =>
  ⟨length_hmac .sha1 .., length_hmac .sha256 .., length_hmac .sha512 .., length_hmac .md5 ..⟩

/-! ### `MAC` (R201, R202) -/

/-- What both ends of `MAC` clear, keep and record, whatever they leave in group D (R201). -/
theorem mac_frame {s t : State} {digest : Memory} {dlen : BitVec 8} {dv : Bool} {c : BitVec 4}
    (ht : t = State.complete { s.clearD with digest, dlen, dv } c) :
    t.ClearedV ∧ t.ClearedC ∧ s.SameConfig t ∧ s.SameSecret t ∧ s.SameK t ∧ s.SameM t ∧
      s.Records c t := by
  subst ht
  exact ⟨⟨rfl, rfl, rfl⟩, ⟨rfl, fun _ => rfl, rfl⟩, ⟨rfl, rfl, rfl, rfl⟩, ⟨fun _ => rfl, rfl, rfl⟩,
    ⟨fun _ => rfl, rfl, rfl⟩, ⟨rfl, fun _ => rfl, rfl, rfl⟩, ⟨rfl, rfl, rfl, rfl⟩⟩

/-- `DLEN` is the digest length of the algorithm (R203). -/
theorem putD_hmac_dlen (s : State) (a : Algorithm) (key msg : List Byte) :
    (s.putD (hmac a key msg)).dlen = BitVec.ofNat 8 a.digestLength :=
  congrArg (BitVec.ofNat 8) (length_hmac a key msg)

/-- A digest written to a cleared group D stands in `DIGEST`, with 0x00 after it (R201). -/
theorem clearD_putD_digest_holds (s : State) (a : Algorithm) (key msg : List Byte) :
    (s.clearD.putD (hmac a key msg)).digest.Holds (hmac a key msg) :=
  Memory.read_storeBytes_nil (hmac a key msg) (length_hmac a key msg ▸ a.digestLength_le)

/-- Settles O33: a digest fits the buffer, so it stands there whole. -/
theorem macWritesDigest : Obligations.MacWritesDigest := by
  intro s hk hm
  have hdlen (alg : BitVec 2) (halg : s.alg = alg) :
      (s.clearD.putD (hmac (algorithmOf s.alg) s.keyBytes s.msgBytes)).dlen =
        BitVec.ofNat 8 (algorithmOf alg).digestLength :=
    halg ▸ putD_hmac_dlen ..
  exact ⟨_, execMac_valid hk hm, rfl, clearD_putD_digest_holds s _ _ _, hdlen 0, hdlen 1, hdlen 2,
    hdlen 3, mac_frame rfl⟩

/-- Settles O34: group D is cleared before the test. -/
theorem macNeedsKeyAndMessage : Obligations.MacNeedsKeyAndMessage := fun _ hinput =>
  ⟨_, execMac_sequence hinput, ⟨fun _ => rfl, rfl, rfl⟩, mac_frame rfl⟩

end Sys2Proof.Machine
end

section
/-! SUPPORT. The hash functions (44_hash_functions.md): the padded length of R221, and the known answers of R232, R244,
R254 and R266. -/

namespace Sys2Proof.Machine

/-! ### The padded length (R221) -/

/-- A padded message is the message, the byte 0x80, the zero bytes and the length field (R221). -/
theorem length_padMessage {lenField : Nat → Nat → List Byte}
    (hfield : ∀ n v, (lenField n v).length = n) (m : List Byte) (block lenBytes : Nat) :
    (padMessage m block lenBytes lenField).length =
      m.length + 1 + lenBytes + padZeros m.length block lenBytes := by
  simp only [padMessage, List.length_append, List.length_cons, List.length_replicate, hfield]
  omega

/-- The zero bytes round a length up to whole blocks: there are none where the rest of the padding ends a block, and
otherwise they fill the last one (R221). -/
theorem add_padZeros {block : Nat} (hblock : 0 < block) (len lenBytes : Nat) :
    len + 1 + lenBytes + padZeros len block lenBytes =
      (len + 1 + lenBytes + (block - 1)) / block * block := by
  unfold padZeros
  generalize len + 1 + lenBytes = n
  have hsplit : block * (n / block) + n % block = n := Nat.div_add_mod n block
  have hquot : (n + (block - 1)) / block = n / block + (n % block + (block - 1)) / block := by
    rw [← Nat.mul_add_div hblock, ← Nat.add_assoc, hsplit]
  rw [hquot, Nat.add_mul, Nat.mul_comm (n / block)]
  obtain hrest | hrest := Nat.eq_zero_or_pos (n % block)
  · have hnone : (0 + (block - 1)) / block = 0 := Nat.div_eq_of_lt (by omega)
    rw [hrest, Nat.sub_zero, Nat.mod_self, hnone]
    omega
  · have hlt : n % block < block := Nat.mod_lt n hblock
    have hone : (n % block + (block - 1)) / block = 1 :=
      Nat.div_eq_of_lt_le (by omega) (by omega)
    rw [Nat.mod_eq_of_lt (Nat.sub_lt hblock hrest), hone]
    omega

/-- The padded length in whole blocks, for a length field of `lenBytes` bytes (R221). -/
theorem length_padMessage_eq_blocks {lenField : Nat → Nat → List Byte}
    (hfield : ∀ n v, (lenField n v).length = n) (m : List Byte) {block : Nat} (hblock : 0 < block)
    (lenBytes : Nat) :
    (padMessage m block lenBytes lenField).length =
      (m.length + 1 + lenBytes + (block - 1)) / block * block :=
  (length_padMessage hfield m block lenBytes).trans (add_padZeros hblock m.length lenBytes)

/-- Settles O37: both byte orders write a length field of the size asked. -/
theorem paddingMakesWholeBlocks : Obligations.PaddingMakesWholeBlocks := fun m =>
  ⟨length_padMessage_eq_blocks length_beBytes m (by decide) 8,
    length_padMessage_eq_blocks length_leBytes m (by decide) 8,
    length_padMessage_eq_blocks length_beBytes m (by decide) 16⟩

/-! ### The known answers -/

/-- Settles O38: the kernel runs each function on the one block of its padded message, SHA1, SHA256, SHA512 and MD5 in
turn. -/
theorem hashKnownAnswers : Obligations.HashKnownAnswers :=
  ⟨by decide +kernel, by decide +kernel, by decide +kernel, by decide +kernel,
    by decide +kernel, by decide +kernel, by decide +kernel, by decide +kernel⟩

end Sys2Proof.Machine
end

section
/-! SUPPORT. The digit extractor (45_truncation_digits.md R281 to R293): the window read from group D, the digits written
to group C, and what every end of `TRUNC` and `MOD` clears and keeps. -/

namespace Sys2Proof.Machine

variable {s t u : State} {i : Instr} {c : BitVec 4}

/-! ### The window in `DIGEST` (R282, R283, R285) -/

/-- The offset comes from the last byte that counts (R282). -/
theorem truncOffset_digestBytes (h : 0 < s.dlen.toNat) :
    truncOffset s.digestBytes = (s.digest.read (s.dlen.toNat - 1)).toNat % 16 := by
  rw [truncOffset_eq, State.length_digestBytes, State.digestBytes,
    Memory.getD_readBytes _ (Nat.sub_one_lt_of_lt h)]

/-- Truncation fails where the window runs past `DLEN`; at `DLEN` 0 no window fits (R285; log 6). -/
theorem truncate_digestBytes_eq_none : truncate s.digestBytes = none ↔
    s.dlen.toNat < (s.digest.read (s.dlen.toNat - 1)).toNat % 16 + 4 := by
  rw [truncate_eq_none, State.length_digestBytes]
  obtain hzero | hpos := Nat.eq_zero_or_pos s.dlen.toNat
  · omega
  · rw [truncOffset_digestBytes hpos]

/-- The four bytes of a window that fits are bytes of `DIGEST` (R283). -/
theorem windowValue_digestBytes {off : Nat} (hfit : off + 4 ≤ s.dlen.toNat) :
    (windowValue s.digestBytes off).toNat =
      (s.digest.read off).toNat % 128 * 2 ^ 24 + (s.digest.read (off + 1)).toNat * 2 ^ 16
        + (s.digest.read (off + 2)).toNat * 2 ^ 8 + (s.digest.read (off + 3)).toNat := by
  have byte {k : Nat} (hk : k < s.dlen.toNat) : s.digestBytes.getD k 0 = s.digest.read k :=
    Memory.getD_readBytes s.digest hk
  rw [windowValue_toNat, byte (by omega), byte (by omega), byte (by omega), byte (by omega)]

/-- Where the window fits, truncation gives the offset of R282. -/
theorem truncate_digestBytes_of_fits {off : Nat}
    (hoff : off = (s.digest.read (s.dlen.toNat - 1)).toNat % 16) (hfit : off + 4 ≤ s.dlen.toNat) :
    ∃ o, truncate s.digestBytes = some (o, windowValue s.digestBytes off) ∧ o.toNat = off := by
  have hsome : truncate s.digestBytes ≠ none := by
    rw [Ne, truncate_digestBytes_eq_none]
    omega
  obtain ⟨⟨o, v⟩, hwindow⟩ := Option.ne_none_iff_exists'.mp hsome
  obtain ⟨ho, rfl, -⟩ := truncate_eq_some hwindow
  rw [truncOffset_digestBytes (by omega), ← hoff] at ho hwindow
  exact ⟨o, hwindow, ho⟩

/-! ### `TRUNC` (R281, R285) -/

/-- What every end of `TRUNC` clears, keeps and records, whatever it leaves in group V (R281). -/
theorem trunc_frame {offset : BitVec 4} {value : Word32} {vv : Bool}
    (ht : t = State.complete { s.clearV with offset, value, vv } c) :
    t.ClearedC ∧ s.SameConfig t ∧ s.SameSecret t ∧ s.SameK t ∧ s.SameM t ∧ s.SameD t ∧
      s.Records c t := by
  subst ht
  exact ⟨⟨rfl, fun _ => rfl, rfl⟩, ⟨rfl, rfl, rfl, rfl⟩, ⟨fun _ => rfl, rfl, rfl⟩,
    ⟨fun _ => rfl, rfl, rfl⟩, ⟨rfl, fun _ => rfl, rfl, rfl⟩, ⟨fun _ => rfl, rfl, rfl⟩,
    ⟨rfl, rfl, rfl, rfl⟩⟩

/-- Settles O39: the window of the digest bytes is the window of `DIGEST`. -/
theorem truncWritesWindow : Obligations.TruncWritesWindow := by
  intro s off hd hoff hfit
  obtain ⟨o, hwindow, ho⟩ := truncate_digestBytes_of_fits hoff hfit
  exact ⟨_, execTrunc_some hd hwindow, rfl, ho, windowValue_digestBytes hfit, trunc_frame rfl⟩

/-- Settles O40: the missing digest is tested first, and group V is cleared before both tests. -/
theorem truncFailures : Obligations.TruncFailures := by
  intro s h
  cases hd : s.dv with
  | false => exact ⟨_, execTrunc_sequence hd, ⟨rfl, rfl, rfl⟩, trunc_frame rfl⟩
  | true =>
    have hwindow := h.resolve_left (ne_false_of_eq_true hd)
    exact ⟨_, execTrunc_none hd (truncate_digestBytes_eq_none.mpr hwindow), ⟨rfl, rfl, rfl⟩,
      trunc_frame rfl⟩

/-! ### The range of `VALUE` (R284) -/

/-- The first byte of the window is masked to seven bits, so the value is below 2^31. -/
theorem windowValue_lt (digest : List Byte) (off : Nat) :
    (windowValue digest off).toNat < 2 ^ 31 := by
  have hbyte (k : Nat) : (digest.getD k 0).toNat < 256 := BitVec.isLt _
  have hfirst : (digest.getD off 0).toNat % 128 < 128 := Nat.mod_lt _ (by decide)
  have hsecond := hbyte (off + 1)
  have hthird := hbyte (off + 2)
  have hfourth := hbyte (off + 3)
  rw [windowValue_toNat]
  omega

theorem truncate_value_lt {digest : List Byte} {o : BitVec 4} {v : Word32}
    (h : truncate digest = some (o, v)) : v.toNat < 2 ^ 31 := by
  obtain ⟨-, rfl, -⟩ := truncate_eq_some h
  exact windowValue_lt digest _

/-- Every command but `NOP` and `MOD` clears group V, and what it then writes there is a truncation. -/
theorem Computes.value_lt (h : Computes s i u c) :
    i = .nop ∨ i = .mod ∨ u.value.toNat < 2 ^ 31 := by
  cases h with
  | nop => exact .inl rfl
  | modSequence | modDigits | mod => exact .inr (.inl rfl)
  | trunc _ _ _ hwindow | gen _ _ _ _ _ _ _ _ _ _ hwindow =>
    exact .inr (.inr (truncate_value_lt hwindow))
  | _ => exact .inr (.inr (Nat.two_pow_pos 31))

theorem exec_value_lt (hi : i = .trunc ∨ i = .gen) (h : exec i s = .next t) :
    t.value.toNat < 2 ^ 31 := by
  obtain ⟨rfl, -⟩ | ⟨-, u, c, hu, rfl⟩ := exec_cases h
  · exact absurd hi (by decide)
  · obtain rfl | rfl | hlt := hu.value_lt
    · exact absurd hi (by decide)
    · exact absurd hi (by decide)
    · exact hlt

/-- Settles O41: below 2^31 bit 31 is 0. -/
theorem truncatedValueRange : Obligations.TruncatedValueRange := fun _ _ _ hi h =>
  have hlt := exec_value_lt hi h
  ⟨Nat.testBit_lt_two_pow hlt, Nat.le_of_lt_succ hlt⟩

/-! ### `MOD` (R289 to R292) -/

/-- What every end of `MOD` keeps and records, whatever it leaves in group C (R289). -/
theorem mod_frame {code : Word32} {codestr : Memory} {cv : Bool}
    (ht : t = State.complete { s.clearC with code, codestr, cv } c) :
    s.SameConfig t ∧ s.SameSecret t ∧ s.SameK t ∧ s.SameM t ∧ s.SameD t ∧ s.SameV t ∧
      s.Records c t := by
  subst ht
  exact ⟨⟨rfl, rfl, rfl, rfl⟩, ⟨fun _ => rfl, rfl, rfl⟩, ⟨fun _ => rfl, rfl, rfl⟩,
    ⟨rfl, fun _ => rfl, rfl, rfl⟩, ⟨fun _ => rfl, rfl, rfl⟩, ⟨rfl, rfl, rfl⟩,
    ⟨rfl, rfl, rfl, rfl⟩⟩

/-- The legal digit counts as numbers (R290). -/
theorem digitsLegal_iff_toNat {d : BitVec 8} :
    digitsLegal d = true ↔ d.toNat = 6 ∨ d.toNat = 8 := by
  rw [digitsLegal_iff, ← BitVec.toNat_inj, ← BitVec.toNat_inj]
  rfl

/-- The digits written to a cleared group C stand in `CODESTR`, with 0x00 after them (R292). -/
theorem clearC_putDigits_codestr_holds (value : Word32) (hdigits : digitsLegal s.digits = true) :
    (s.clearC.putDigits value).codestr.Holds
      (digitChars s.digits.toNat (codeOf value s.digits)) :=
  Memory.read_storeBytes_nil _ (by simpa using digitsLegal_le hdigits)

/-- Settles O42: at most eight digits fit `CODE` and `CODESTR`. -/
theorem modWritesDigits : Obligations.ModWritesDigits := by
  rintro s n hv rfl hn
  have hdigits := digitsLegal_iff_toNat.mpr hn
  have hchars := clearC_putDigits_codestr_holds s.value hdigits
  refine ⟨_, execMod_code hv hdigits, rfl, codeOf_toNat (digitsLegal_le hdigits),
    fun i hi => ?_, fun i hi => ?_, mod_frame rfl⟩
  · exact (congrArg BitVec.toNat (hchars i)).trans (getD_digitChars hi)
  · exact read_storeBytes_beyond (by simpa using digitsLegal_le hdigits) (by simpa using hi)

/-- Settles O43: the missing value is tested first, and group C is cleared before both tests. -/
theorem modFailures : Obligations.ModFailures := by
  intro s h
  cases hv : s.vv with
  | false => exact ⟨_, execMod_sequence hv, ⟨rfl, fun _ => rfl, rfl⟩, mod_frame rfl⟩
  | true =>
    obtain ⟨hnotSix, hnotEight⟩ := h.resolve_left (ne_false_of_eq_true hv)
    have hdigits : digitsLegal s.digits = false :=
      eq_false_of_ne_true fun hlegal => (digitsLegal_iff_toNat.mp hlegal).elim hnotSix hnotEight
    exact ⟨_, execMod_digits hv hdigits, ⟨rfl, fun _ => rfl, rfl⟩, mod_frame rfl⟩

/-! ### Six digits and eight (R293) -/

/-- Reduction modulo `10^n` keeps the last `n` digits. -/
theorem digit_mod_pow {k n : Nat} (v : Nat) (h : k < n) :
    v % 10 ^ n / 10 ^ k % 10 = v / 10 ^ k % 10 := by
  obtain ⟨m, rfl⟩ := Nat.exists_eq_add_of_lt h
  have hsplit : 10 ^ (k + m + 1) = 10 ^ k * (10 * 10 ^ m) := by
    rw [Nat.pow_succ, Nat.pow_add, Nat.mul_assoc, Nat.mul_comm (10 ^ m)]
  rw [hsplit, Nat.mod_mul_right_div_self, Nat.mod_mul_right_mod]

/-- Settles O44: both codes end in the digits of the value itself. -/
theorem sixDigitsEndEightDigits : Obligations.SixDigitsEndEightDigits := by
  intro s t6 t8 hv h6 h8
  obtain ⟨_, heq6, -, hcode6, hchars6, -⟩ :=
    modWritesDigits { s with digits := 6 } 6 hv rfl (.inl rfl)
  obtain ⟨_, heq8, -, hcode8, hchars8, -⟩ :=
    modWritesDigits { s with digits := 8 } 8 hv rfl (.inr rfl)
  cases heq6.symm.trans h6
  cases heq8.symm.trans h8
  refine ⟨?_, fun i hi => BitVec.eq_of_toNat_eq ?_⟩
  · rw [hcode6, hcode8]
    exact (Nat.mod_mod_of_dvd _ (by decide)).symm
  · rw [hchars6 i hi, hchars8 (i + 2) (by omega), digit_mod_pow _ (by omega),
      digit_mod_pow _ (by omega), show 8 - 1 - (i + 2) = 6 - 1 - i by omega]

end Sys2Proof.Machine
end

section
/-! SUPPORT. `GEN` (46_generate.md R301 to R311): its two ends, said once of the values it works out, the five unit
commands that work out the same, and `generate` in the same terms. -/

namespace Sys2Proof.Machine

variable {s t u : State} {i : Instr} {c : BitVec 4} {e : ErrorKind} {q : Word64} {r : Word32}
  {key digest : List Byte}

/-! ### The two ends of `GEN` (R301, R305, R306) -/

/-- The first error of `GEN` on this state (R305). -/
def State.firstError (s : State) : Option ErrorKind :=
  genError s.secretText s.ovf s.alg s.digits s.period s.time

/-- The values `GEN` works out, in its order (R301). -/
structure GenValues where
  counter : Word64
  trem : Word32
  key : List Byte
  digest : List Byte
  offset : BitVec 4
  value : Word32

/-- The four tests before the decode pass, and the time step is `q` and `r`. -/
structure State.GenReady (s : State) (q : Word64) (r : Word32) : Prop where
  ovf : s.ovf = false
  blank : secretBlank s.secretText = false
  digits : digitsLegal s.digits = true
  time : timeStep s.time s.period = some (q, r)

/-- No error applies, and these are the values. -/
structure State.GenRuns (s : State) (g : GenValues) : Prop extends s.GenReady g.counter g.trem where
  key : b32decode s.secretText true = some g.key
  digest : hmac (algorithmOf s.alg) g.key (beBytes 8 g.counter.toNat) = g.digest
  window : truncate g.digest = some (g.offset, g.value)

/-- The five groups written with these values, one after the other. -/
def State.generated (s : State) (g : GenValues) : State :=
  ((((s.clearK.clearM.putM g.counter g.trem).putK g.key).putD g.digest).putV g.offset g.value).putDigits
    g.value

variable {g : GenValues}

/-! `GEN` clears every group first, so each buffer is written from empty (R301). -/

@[simp] theorem State.generated_key : (s.generated g).key = Memory.storeBytes Config.keyMax [] 0 g.key := by
  simp [State.generated]
@[simp] theorem State.generated_klen : (s.generated g).klen = BitVec.ofNat 16 g.key.length := by
  simp [State.generated]
@[simp] theorem State.generated_msg : (s.generated g).msg =
    Memory.storeBytes Config.msgLen [] 0 (beBytes Config.msgLen g.counter.toNat) := by
  simp [State.generated]
@[simp] theorem State.generated_digest : (s.generated g).digest =
    Memory.storeBytes Config.digestMax [] 0 g.digest := by
  simp [State.generated]
@[simp] theorem State.generated_dlen : (s.generated g).dlen = BitVec.ofNat 8 g.digest.length := by
  simp [State.generated]
@[simp] theorem State.generated_code : (s.generated g).code = BitVec.ofNat 32 (codeOf g.value s.digits) := by
  simp [State.generated]
@[simp] theorem State.generated_codestr : (s.generated g).codestr =
    Memory.storeBytes Config.codeMax [] 0 (digitChars s.digits.toNat (codeOf g.value s.digits)) := by
  simp [State.generated]
@[simp] theorem State.generated_ef : (s.generated g).ef = s.ef := by
  simp [State.generated]
@[simp] theorem State.generated_pending : (s.generated g).pending = s.pending := by
  simp [State.generated]

theorem exec_gen_runs (h : s.GenRuns g) : exec .gen s = .next ((s.generated g).complete 0) := by
  obtain ⟨⟨hovf, hblank, hdigits, htime⟩, hkey, hdigest, hwindow⟩ := h
  have hexec := execGen_code hovf hblank hdigits htime hkey ((congrArg truncate hdigest).trans hwindow)
  rwa [hdigest] at hexec

/-- `GEN` works out a state with every group clear and the code of its first error, or no error applies. -/
theorem Computes.gen_cases (h : Computes s i u c) (hi : i = .gen) :
    (∃ e, s.firstError = some e ∧ u = s.clearK.clearM ∧ c = e.code) ∨ ∃ g, s.GenRuns g := by
  cases h with
  | genFail e herror => exact .inl ⟨e, herror, rfl, rfl⟩
  | gen q r key o v hovf hblank hdigits htime hkey hwindow =>
    exact .inr ⟨⟨q, r, key, _, o, v⟩, ⟨hovf, hblank, hdigits, htime⟩, hkey, rfl, hwindow⟩
  | decodeOverflow fold | decodeFail fold | decodeKey fold => cases fold <;> cases hi
  | _ => cases hi

theorem exec_gen_cases (s : State) :
    (∃ e, s.firstError = some e ∧ exec .gen s = .next (s.clearK.clearM.complete e.code)) ∨
    ∃ g, s.GenRuns g ∧ exec .gen s = .next ((s.generated g).complete 0) := by
  obtain ⟨u, c, hu, hexec⟩ := completes_gen (s := s)
  obtain ⟨e, herror, rfl, rfl⟩ | ⟨g, hg⟩ := hu.gen_cases rfl
  · exact .inl ⟨e, herror, hexec⟩
  · exact .inr ⟨g, hg, exec_gen_runs hg⟩

/-- Past the four tests only the decode and the window can fail. -/
theorem State.GenReady.firstError_eq (h : s.GenReady q r) : s.firstError =
    (b32decode s.secretText true).elim (some .invalidSecretEncoding) fun key =>
      if truncate (hmac (algorithmOf s.alg) key (beBytes 8 q.toNat)) = none
      then some .truncationRange else none :=
  genError_of_inputs h.ovf h.blank h.digits h.time

theorem State.GenRuns.firstError_eq (h : s.GenRuns g) : s.firstError = none := by
  rw [h.toGenReady.firstError_eq, h.key, Option.elim_some, h.digest, h.window, if_neg nofun]

theorem exec_gen_error (h : s.firstError = some e) :
    exec .gen s = .next (s.clearK.clearM.complete e.code) := by
  obtain ⟨e', herror, hexec⟩ | ⟨g, hg, -⟩ := exec_gen_cases s
  · cases h.symm.trans herror
    exact hexec
  · cases h.symm.trans hg.firstError_eq

theorem ErrorKind.code_ne_zero (e : ErrorKind) : e.code ≠ 0 := by
  cases e <;> decide

/-- Two errors have the same code only where they are the same (R321). -/
theorem ErrorKind.code_injective {e e' : ErrorKind} (h : e.code = e'.code) : e = e' := by
  cases e <;> cases e' <;> revert h <;> decide

/-- `GEN` completes with 0 only where no error applies. -/
theorem genRuns_of_lasterr_zero (h : exec .gen s = .next t) (hzero : t.lasterr = 0) :
    ∃ g, s.GenRuns g ∧ t = (s.generated g).complete 0 := by
  obtain ⟨e, -, hexec⟩ | ⟨g, hg, hexec⟩ := exec_gen_cases s
  · cases hexec.symm.trans h
    exact absurd hzero e.code_ne_zero
  · exact ⟨g, hg, Host.Outcome.next.inj (h.symm.trans hexec)⟩

/-- The whitespace test fails on a character that is none of the six (R303). -/
theorem secretBlank_eq_false_iff (text : List Byte) :
    secretBlank text = false ↔ ∃ c ∈ text, ¬ WhitespaceCode c := by
  simp only [← Bool.not_eq_true, secretBlank_iff, Classical.not_forall, exists_prop]

theorem length_hmac_le (a : Algorithm) (key msg : List Byte) :
    (hmac a key msg).length ≤ Config.digestMax :=
  length_hmac a key msg ▸ a.digestLength_le

theorem State.GenRuns.length_digest_le (h : s.GenRuns g) : g.digest.length ≤ Config.digestMax :=
  h.digest ▸ length_hmac_le ..

/-- Settles O46: the error is reported on the state with every group cleared. -/
theorem genFailureClearsAllGroups : Obligations.GenFailureClearsAllGroups := fun s _ herror =>
  ⟨_, exec_gen_error (s := s) herror, ⟨fun _ => rfl, rfl, rfl⟩, ⟨rfl, fun _ => rfl, rfl, rfl⟩,
    ⟨fun _ => rfl, rfl, rfl⟩, ⟨rfl, rfl, rfl⟩, ⟨rfl, fun _ => rfl, rfl⟩, ⟨rfl, rfl, rfl, rfl⟩,
    ⟨fun _ => rfl, rfl, rfl⟩, ⟨rfl, rfl, rfl, rfl⟩⟩

/-- Where `GEN` fails, its code tells the error (R321). -/
theorem firstError_of_lasterr (h : exec .gen s = .next t) (hcode : t.lasterr = e.code) :
    s.firstError = some e := by
  obtain ⟨e', herror, hexec⟩ | ⟨g, -, hexec⟩ := exec_gen_cases s
  · cases hexec.symm.trans h
    rw [herror, ErrorKind.code_injective hcode]
  · cases hexec.symm.trans h
    exact absurd hcode.symm e.code_ne_zero

/-- The errors of the decode and the window are reported only past the four tests (R305). -/
theorem genReady_of_error (h : s.firstError = some e)
    (he : e = .invalidSecretEncoding ∨ e = .truncationRange) : ∃ q r, s.GenReady q r := by
  rw [State.firstError, genError_eq] at h
  have late {e' : ErrorKind} (h' : some e' = some e) :
      e' = .invalidSecretEncoding ∨ e' = .truncationRange := Option.some.inj h' ▸ he
  split at h
  · exact absurd (late h) (by decide)
  split at h
  · exact absurd (late h) (by decide)
  split at h
  · exact absurd (late h) (by decide)
  split at h
  · exact absurd (late h) (by decide)
  rename_i hovf hblank hdigits hperiod
  exact ⟨_, _, eq_false_of_ne_true hovf, eq_false_of_ne_true hblank,
    digitsLegal_iff.mpr (Classical.not_not.mp hdigits), timeStep_some (Int.not_le.mp hperiod)⟩

/-- Past the four tests, each of the two errors is that of its unit. -/
theorem State.GenReady.decode_eq_none (h : s.GenReady q r)
    (herror : s.firstError = some .invalidSecretEncoding) : b32decode s.secretText true = none := by
  rw [h.firstError_eq] at herror
  cases hkey : b32decode s.secretText true with
  | none => rfl
  | some key =>
    rw [hkey, Option.elim_some] at herror
    split at herror <;> cases herror

theorem State.GenReady.window_eq_none (h : s.GenReady q r)
    (herror : s.firstError = some .truncationRange) : ∃ key, b32decode s.secretText true = some key ∧
      truncate (hmac (algorithmOf s.alg) key (beBytes 8 q.toNat)) = none := by
  rw [h.firstError_eq] at herror
  cases hkey : b32decode s.secretText true with
  | none =>
    rw [hkey, Option.elim_none] at herror
    cases herror
  | some key =>
    rw [hkey, Option.elim_some] at herror
    split at herror
    · exact ⟨key, rfl, ‹_›⟩
    · cases herror

/-! ### Every group written (R303) -/

/-- The four bytes of a window that fits, big-endian without bit 31, are its value (R283). -/
theorem windowValue_eq_fromBe {digest : List Byte} {off : Nat} (h : off + 4 ≤ digest.length) :
    (windowValue digest off).toNat = fromBe ((digest.drop off).take 4) % 2 ^ 31 := by
  have hdrop {k : Nat} (hk : k < digest.length) :
      digest.drop k = digest.getD k 0 :: digest.drop (k + 1) := by
    rw [List.drop_eq_getElem_cons hk, List.getD_eq_getElem?_getD, List.getElem?_eq_getElem hk,
      Option.getD_some]
  have hwindow : (digest.drop off).take 4 = [digest.getD off 0, digest.getD (off + 1) 0,
      digest.getD (off + 2) 0, digest.getD (off + 3) 0] := by
    rw [hdrop (by omega), hdrop (by omega), hdrop (by omega), hdrop (by omega)]
    rfl
  have hbyte (k : Nat) : (digest.getD k 0).toNat < 256 := BitVec.isLt _
  have hfirst := hbyte off
  have hsecond := hbyte (off + 1)
  have hthird := hbyte (off + 2)
  have hfourth := hbyte (off + 3)
  rw [windowValue_toNat, hwindow]
  simp only [fromBe, List.foldl_cons, List.foldl_nil]
  omega

/-- Where the window fits, truncation gives the offset of R282 and the value of R283. -/
theorem truncate_of_fits {digest : List Byte} {off : Nat}
    (hoff : off = (digest.getD (digest.length - 1) 0).toNat % 16) (hfit : off + 4 ≤ digest.length) :
    ∃ o v, truncate digest = some (o, v) ∧ o.toNat = off ∧
      v.toNat = fromBe ((digest.drop off).take 4) % 2 ^ 31 := by
  rw [← truncOffset_eq] at hoff
  subst hoff
  have hsome : truncate digest ≠ none := fun h => by
    rw [truncate_eq_none] at h
    omega
  obtain ⟨⟨o, v⟩, hwindow⟩ := Option.ne_none_iff_exists'.mp hsome
  obtain ⟨ho, rfl, -⟩ := truncate_eq_some hwindow
  exact ⟨o, _, hwindow, ho, windowValue_eq_fromBe hfit⟩

/-- The low five bits of `STATUS` are the valid flags (R33). -/
theorem status_and_valid (hk : s.kv = true) (hm : s.mv = true) (hd : s.dv = true) (hv : s.vv = true)
    (hc : s.cv = true) : s.status &&& 0x1F = 0x1F := by
  rw [State.status, hk, hm, hd, hv, hc]
  generalize s.lasterr = code
  cases s.ef <;> cases s.ovf <;> revert code <;> decide

/-- Every buffer was clear before its write and has room, so it holds what was written whole; the lengths and the code
fit their registers. -/
theorem generated_holds (h : s.GenRuns g) (hslen : s.slen.toNat ≤ 256) :
    (s.generated g).key.Holds g.key ∧ (s.generated g).klen.toNat = g.key.length ∧
    (s.generated g).msg.Holds (beBytes 8 g.counter.toNat) ∧
    (s.generated g).digest.Holds g.digest ∧ (s.generated g).dlen.toNat = g.digest.length ∧
    (s.generated g).code.toNat = g.value.toNat % 10 ^ s.digits.toNat ∧
    (s.generated g).codestr.Holds (digitChars s.digits.toNat (g.value.toNat % 10 ^ s.digits.toNat)) := by
  have hlength : g.key.length ≤ 160 := length_key_le h.key hslen
  have hmax : g.digest.length ≤ 64 := h.length_digest_le
  rw [State.generated_key, State.generated_klen, State.generated_msg, State.generated_digest,
    State.generated_dlen, State.generated_code, State.generated_codestr]
  refine ⟨Memory.read_storeBytes_nil g.key hlength, ?_,
    Memory.read_storeBytes_nil _ (Nat.le_of_eq (length_beBytes ..)),
    Memory.read_storeBytes_nil g.digest hmax, ?_, codeOf_toNat (digitsLegal_le h.digits),
    Memory.read_storeBytes_nil _
      (Nat.le_trans (Nat.le_of_eq (length_digitChars ..)) (digitsLegal_le h.digits))⟩
  · rw [BitVec.toNat_ofNat, Nat.mod_eq_of_lt (by omega)]
  · rw [BitVec.toNat_ofNat, Nat.mod_eq_of_lt (by omega)]

theorem generated_records : s.Records 0 ((s.generated g).complete 0) where
  lasterr := rfl
  ef := by rw [State.complete_ef, State.generated_ef, stickyError]
  reply := rfl
  pending := by rw [State.complete_pending, State.generated_pending]

/-- Settles O45: each group is written to cleared buffers that hold it whole. -/
theorem genWritesAllGroups : Obligations.GenWritesAllGroups := by
  intro s p key digest off value hovf hslen hblank hdigits hp hpos hkey hdigest hoff hfit hvalue
  obtain ⟨counter, trem, htime, hcounter, htrem⟩ := timeStep_of_pos (time := s.time) hp hpos
  obtain ⟨o, v, hwindow, ho, hv⟩ := truncate_of_fits hoff hfit
  have hruns : s.GenRuns ⟨counter, trem, key, digest, o, v⟩ :=
    { ovf := hovf
      blank := (secretBlank_eq_false_iff _).mpr hblank
      digits := digitsLegal_iff.mpr hdigits
      time := htime
      key := hkey
      digest := by rw [hdigest, ← hcounter]
      window := hwindow }
  obtain ⟨hkeyHolds, hklen, hmsg, hdigestHolds, hdlen, hcode, hchars⟩ := generated_holds hruns hslen
  rw [hcounter] at hmsg
  rw [hv, ← hvalue] at hcode hchars
  have hexec := exec_gen_runs hruns
  exact ⟨_, hexec, status_and_valid rfl rfl rfl rfl rfl, hkeyHolds, hklen, hcounter, hmsg,
    htrem, hdigestHolds, hdlen, ho, hv.trans hvalue.symm, hcode, hchars,
    exec_sameConfig hexec, exec_sameSecret hexec nofun nofun, generated_records⟩

/-! ### The five unit commands (R307) -/

/-- No command reads `LASTERR` or the response, and a completion with 0 leaves `EF`. -/
theorem exec_complete_zero (i : Instr) (s : State) : exec i (s.complete 0) = exec i s := by
  have hrecord : s.complete 0 = { s with lasterr := 0, reply := some (.cmd 0) } := by
    simp [State.complete, stickyError]
  rw [hrecord]
  cases i <;> rfl

theorem execAll_cons {cmds : List Instr} (h : exec i s = .next t) :
    execAll (i :: cmds) s = execAll cmds t := by
  rw [execAll, h]

/-- After a command that has completed with 0 the next runs as on the state without its record. -/
theorem execAll_cons_complete {cmds : List Instr} (h : exec i s = .next t) :
    execAll (i :: cmds) (s.complete 0) = execAll cmds t :=
  execAll_cons ((exec_complete_zero i s).trans h)

/-- Groups M and K as `GEN` writes them (R301). -/
def State.keyed (s : State) (q : Word64) (r : Word32) (key : List Byte) : State :=
  (s.clearK.clearM.putM q r).putK key

/-- `CTR` and `DECU` write groups M and K as `GEN` does, in either order. -/
theorem State.GenReady.execAll_ctr_decu (h : s.GenReady q r)
    (hkey : b32decode s.secretText true = some key) (cmds : List Instr) :
    execAll (.ctr :: .decu :: cmds) s = execAll cmds ((s.keyed q r key).complete 0) ∧
    execAll (.decu :: .ctr :: cmds) s = execAll cmds ((s.keyed q r key).complete 0) := by
  have hctr (u : State) (htime : timeStep u.time u.period = some (q, r)) :
      exec .ctr u = .next ((u.clearM.putM q r).complete 0) := execCtr_some htime
  have hdecu (u : State) (hovf : u.ovf = false) (hkey : b32decode u.secretText true = some key) :
      exec .decu u = .next ((u.clearK.putK key).complete 0) :=
    congrArg _ (decodeSecret_key hovf hkey)
  constructor
  · rw [execAll_cons (hctr s h.time),
      execAll_cons_complete (hdecu (s.clearM.putM q r) h.ovf hkey)]
    rfl
  · rw [execAll_cons (hdecu s h.ovf hkey), execAll_cons_complete (hctr (s.clearK.putK key) h.time)]
    rfl

/-- `MAC` on groups K and M writes the digest `GEN` takes (R201). -/
theorem exec_mac_keyed (hlength : key.length ≤ 160)
    (hdigest : hmac (algorithmOf s.alg) key (beBytes 8 q.toNat) = digest) :
    exec .mac (s.keyed q r key) = .next (((s.keyed q r key).putD digest).complete 0) := by
  obtain ⟨hkeyBytes, hmsgBytes⟩ := gen_digest s q r hlength
  have hexec := execMac_valid (s := s.keyed q r key) rfl rfl
  rw [State.keyed, hkeyBytes, hmsgBytes] at hexec
  exact hdigest ▸ hexec

theorem keyed_digestBytes (hmax : digest.length ≤ Config.digestMax) :
    ((s.keyed q r key).putD digest).digestBytes = digest :=
  putD_digestBytes_of_empty rfl hmax

/-- Settles O47: the five units write the values of `GEN` to groups that are clear. -/
theorem genEqualsUnitCommands : Obligations.GenEqualsUnitCommands := by
  intro s t hslen hexec hzero
  obtain ⟨g, hg, rfl⟩ := genRuns_of_lasterr_zero hexec hzero
  let u := (s.keyed g.counter g.trem g.key).putD g.digest
  have hexecMac : exec .mac (s.keyed g.counter g.trem g.key) = .next (u.complete 0) :=
    exec_mac_keyed (length_key_le hg.key hslen) hg.digest
  have hexecTrunc : exec .trunc u = .next ((u.putV g.offset g.value).complete 0) :=
    execTrunc_some rfl ((congrArg truncate (keyed_digestBytes hg.length_digest_le)).trans hg.window)
  have hexecMod : exec .mod (u.putV g.offset g.value) = .next ((s.generated g).complete 0) := by
    rw [exec_mod, execMod_code rfl (by simpa [u, State.keyed] using hg.digits)]
    rfl
  have hrest : execAll [.mac, .trunc, .mod] ((s.keyed g.counter g.trem g.key).complete 0) =
      .next ((s.generated g).complete 0) := by
    rw [execAll_cons_complete hexecMac, execAll_cons_complete hexecTrunc,
      execAll_cons_complete hexecMod]
    rfl
  obtain ⟨hctr, hdecu⟩ := hg.execAll_ctr_decu hg.key [.mac, .trunc, .mod]
  exact ⟨hctr.trans hrest, hdecu.trans hrest⟩

/-- A text that does not decode stops the chain at `DECU`; group M stays as `CTR` wrote it. -/
theorem units_of_decode_fails (h : s.GenReady q r) (hkey : b32decode s.secretText true = none) :
    ∃ a b c d, exec .ctr s = .next a ∧ a.lasterr = 0 ∧ exec .decu a = .next b ∧ b.lasterr = 1 ∧
      exec .mac b = .next c ∧ c.lasterr = 9 ∧ exec .trunc c = .next d ∧ d.lasterr = 9 ∧
      d.mv = true ∧ ∃ e, exec .mod d = .next e ∧ e.lasterr = 9 := by
  let a := (s.clearM.putM q r).complete 0
  have hovf : a.ovf = false := h.ovf
  obtain ⟨b, hdecu, hK, -, -, -, -, -, hMb, hb⟩ := decodeFailureLeavesNoKey a true (.inr hkey)
  obtain ⟨c, hmac, hD, -, -, -, -, -, hMc, hc⟩ := macNeedsKeyAndMessage b (.inl hK.kv)
  obtain ⟨d, htrunc, hV, -, -, -, -, hMd, -, hd⟩ := truncFailures c (.inl hD.dv)
  obtain ⟨e, hmod, -, -, -, -, -, -, -, he⟩ := modFailures d (.inl hV.vv)
  rw [hovf] at hb
  rw [hD.dv] at hd
  rw [hV.vv] at he
  exact ⟨a, b, c, d, execCtr_some h.time, rfl, hdecu, hb.lasterr, hmac, hc.lasterr, htrunc, hd.lasterr,
    hMd.mv.trans (hMc.mv.trans hMb.mv), e, hmod, he.lasterr⟩

/-- A window that does not fit stops the chain at `TRUNC`; groups K, M and D stay as they were written. -/
theorem units_of_window_fails (h : s.GenReady q r) (hslen : s.slen.toNat ≤ 256)
    (hkey : b32decode s.secretText true = some key)
    (hwindow : truncate (hmac (algorithmOf s.alg) key (beBytes 8 q.toNat)) = none) :
    ∃ c d, execAll [.ctr, .decu, .mac] s = .next c ∧ c.lasterr = 0 ∧
      exec .trunc c = .next d ∧ d.lasterr = 11 ∧ d.kv = true ∧ d.mv = true ∧ d.dv = true ∧
      ∃ e, exec .mod d = .next e ∧ e.lasterr = 9 := by
  let c := ((s.keyed q r key).putD (hmac (algorithmOf s.alg) key (beBytes 8 q.toNat))).complete 0
  have hrun : execAll [.ctr, .decu, .mac] s = .next c :=
    (h.execAll_ctr_decu hkey [.mac]).1.trans
      (execAll_cons_complete (exec_mac_keyed (length_key_le hkey hslen) rfl))
  have hnone : truncate c.digestBytes = none :=
    (congrArg truncate (keyed_digestBytes (length_hmac_le ..))).trans hwindow
  obtain ⟨d, htrunc, hV, -, -, -, hK, hM, hD, hd⟩ :=
    truncFailures c (.inr (truncate_digestBytes_eq_none.mp hnone))
  obtain ⟨e, hmod, -, -, -, -, -, -, -, he⟩ := modFailures d (.inl hV.vv)
  rw [hV.vv] at he
  exact ⟨c, d, hrun, rfl, htrunc, hd.lasterr, hK.kv, hM.mv, hD.dv, e, hmod, he.lasterr⟩

/-- Settles O48: the code of `GEN` tells which unit fails, and the units before it have what they need. -/
theorem genFailureInUnitCommands : Obligations.GenFailureInUnitCommands := by
  intro s t hslen hexec
  refine ⟨fun hcode => ?_, fun hcode => ?_⟩
  · have herror := firstError_of_lasterr (e := .invalidSecretEncoding) hexec hcode
    obtain ⟨q, r, hready⟩ := genReady_of_error herror (.inl rfl)
    exact units_of_decode_fails hready (hready.decode_eq_none herror)
  · have herror := firstError_of_lasterr (e := .truncationRange) hexec hcode
    obtain ⟨q, r, hready⟩ := genReady_of_error herror (.inr rfl)
    obtain ⟨key, hkey, hwindow⟩ := hready.window_eq_none herror
    exact units_of_window_fails hready hslen hkey hwindow

/-! ### `generate` (R311) -/

section
variable {text : List Byte} {alg : BitVec 2} {digits : BitVec 8} {period : Word32} {time : Word64}

/-- `generate` names the empty text apart; its characters too are all whitespace. -/
theorem empty_or_blank_iff : (text.length = 0 ∨ ∀ c ∈ text, WhitespaceCode c) ↔
    ∀ c ∈ text, WhitespaceCode c :=
  or_iff_right_of_imp fun h _ hc => absurd (List.length_pos_of_mem hc) (Nat.not_lt.mpr (Nat.le_of_eq h))

/-- `generate` makes the tests of `GEN` in their order. -/
theorem generate_of_error (h : genError text false alg digits period time = some e) :
    generate text alg digits period time = .error e := by
  simp only [genError, length_hmac, Bool.false_eq_true, if_false] at h
  simp only [generate, empty_or_blank_iff]
  have same {e' : ErrorKind} (h' : some e' = some e) :
      (Except.error e' : Except ErrorKind (List Byte)) = .error e := congrArg _ (Option.some.inj h')
  by_cases hblank : ∀ c ∈ text, WhitespaceCode c
  · rw [if_pos hblank] at h ⊢
    exact same h
  rw [if_neg hblank] at h ⊢
  by_cases hdigits : ¬ (digits = 6 ∨ digits = 8)
  · rw [if_pos hdigits] at h ⊢
    exact same h
  rw [if_neg hdigits] at h ⊢
  by_cases hperiod : period.toInt ≤ 0
  · rw [if_pos hperiod] at h ⊢
    exact same h
  rw [if_neg hperiod] at h ⊢
  cases hkey : b32decode text true with
  | none =>
    rw [hkey] at h
    exact same h
  | some key =>
    simp only [hkey] at h ⊢
    split at h
    · rw [if_pos ‹_›]
      exact same h
    · cases h

end

/-- Where no error applies `generate` returns the digits `GEN` writes. -/
theorem State.GenRuns.generate_eq (h : s.GenRuns g) :
    generate s.secretText s.alg s.digits s.period s.time =
      .ok (digitChars s.digits.toNat (codeOf g.value s.digits)) := by
  obtain ⟨hpos, hcounter, -⟩ := timeStep_eq_some h.time
  have hdigest := h.digest
  rw [hcounter] at hdigest
  have hlength : (algorithmOf s.alg).digestLength = g.digest.length := by
    rw [← h.digest, length_hmac]
  obtain ⟨-, hvalue, hfit⟩ := truncate_eq_some h.window
  have hblank : ¬ ∀ c ∈ s.secretText, WhitespaceCode c := by
    rw [← secretBlank_iff, h.blank]
    nofun
  simp only [generate, empty_or_blank_iff, if_neg hblank, digitsLegal_iff.mp h.digits, not_true,
    if_false, if_neg (Int.not_le.mpr hpos), h.key, hdigest, hlength, ← truncOffset_eq,
    if_neg (Nat.not_lt.mpr hfit)]
  rw [codeOf, hvalue, windowValue_eq_fromBe hfit]

theorem State.GenRuns.codeText_eq (h : s.GenRuns g) : (s.generated g).codeText =
    digitChars s.digits.toNat (codeOf g.value s.digits) := by
  rw [State.generated, putDigits_codeText_of_empty _ (by simp) (by simpa using h.digits)]
  simp

/-- `GEN` on a secret that has not overflowed computes `generate`. -/
theorem exec_gen_generate (hovf : s.ovf = false) : ∃ t, exec .gen s = .next t ∧ t.pending = s.pending ∧
    match generate s.secretText s.alg s.digits s.period s.time with
    | .ok str => t.reply = some (.cmd 0) ∧ t.cv = true ∧ t.codeText = str
    | .error e => t.reply = some (.cmd e.code) ∧ t.cv = false := by
  obtain ⟨e, herror, hexec⟩ | ⟨g, hg, hexec⟩ := exec_gen_cases s
  · rw [State.firstError, hovf] at herror
    rw [generate_of_error herror]
    exact ⟨_, hexec, rfl, rfl, rfl⟩
  · rw [hg.generate_eq]
    exact ⟨_, hexec, generated_records.pending, rfl, rfl, hg.codeText_eq⟩

/-- Settles O49; the bound on the length is not needed, since `GEN` takes the decoded key and not the buffer. -/
theorem genComputesGenerate : Obligations.GenComputesGenerate := by
  intro s hovf _
  obtain ⟨t, hexec, -, hresult⟩ := exec_gen_generate hovf
  exact ⟨t, hexec, hresult⟩

/-! ### The results depend on the inputs alone (R308) -/

section
variable {s' : State} (htext : s.secretText = s'.secretText) (hovf : s.ovf = s'.ovf)
  (hconfig : s.SameConfig s')
include htext hovf hconfig

theorem firstError_congr : s'.firstError = s.firstError := by
  rw [State.firstError, ← htext, ← hovf, hconfig.alg, hconfig.digits, hconfig.period, hconfig.time,
    State.firstError]

theorem State.GenRuns.congr (h : s.GenRuns g) : s'.GenRuns g where
  ovf := hovf ▸ h.ovf
  blank := htext ▸ h.blank
  digits := hconfig.digits ▸ h.digits
  time := by rw [hconfig.time, hconfig.period, h.time]
  key := htext ▸ h.key
  digest := hconfig.alg ▸ h.digest
  window := h.window

end

/-- The groups `GEN` writes depend on its values and on `DIGITS`. -/
theorem generated_sameGroups {s' : State} (hdigits : s'.digits = s.digits) :
    (s.generated g).SameK (s'.generated g) ∧ (s.generated g).SameM (s'.generated g) ∧
    (s.generated g).SameD (s'.generated g) ∧ (s.generated g).SameV (s'.generated g) ∧
    (s.generated g).SameC (s'.generated g) := by
  refine ⟨?_, ?_, ?_, ?_, ?_⟩ <;> constructor <;> simp [State.generated, hdigits]

/-- Settles O51: both states fail with the same error, or run with the same values. -/
theorem genDependsOnlyOnInputs : Obligations.GenDependsOnlyOnInputs := by
  intro s s' t t' htext _ hovf hconfig hexec hexec'
  have hconfig' := exec_sameConfig hexec
  have hsecret := exec_sameSecret hexec nofun nofun
  obtain ⟨e, herror, hs⟩ | ⟨g, hg, hs⟩ := exec_gen_cases s
  · have hs' := exec_gen_error ((firstError_congr htext hovf hconfig).trans herror)
    cases hs.symm.trans hexec
    cases hs'.symm.trans hexec'
    exact ⟨⟨fun _ => rfl, rfl, rfl⟩, ⟨rfl, fun _ => rfl, rfl, rfl⟩, ⟨fun _ => rfl, rfl, rfl⟩,
      ⟨rfl, rfl, rfl⟩, ⟨rfl, fun _ => rfl, rfl⟩, rfl, rfl, hconfig', hsecret⟩
  · have hs' := exec_gen_runs (hg.congr htext hovf hconfig)
    cases hs.symm.trans hexec
    cases hs'.symm.trans hexec'
    obtain ⟨hK, hM, hD, hV, hC⟩ := generated_sameGroups (g := g) hconfig.digits
    exact ⟨⟨hK.bytes, hK.klen, hK.kv⟩, ⟨hM.counter, hM.bytes, hM.trem, hM.mv⟩,
      ⟨hD.bytes, hD.dlen, hD.dv⟩, ⟨hV.offset, hV.value, hV.vv⟩, ⟨hC.code, hC.bytes, hC.cv⟩, rfl, rfl,
      hconfig', hsecret⟩

/-! ### The whole of it (R311, R354) -/

/-- A run goes on from where its first steps lead. -/
theorem run_add (M : Host.Core) {m : Nat} {s t : M.State} (h : M.run m s = .next t) (k : Nat) :
    M.run (m + k) s = M.run k t := by
  induction m generalizing s with
  | zero =>
    rw [Host.Core.run] at h
    cases h
    rw [Nat.zero_add]
  | succ m ih =>
    rw [Host.Core.run] at h
    cases hstep : M.step s with
    | next u =>
      rw [hstep] at h
      rw [Nat.add_right_comm, run_succ M (m + k) hstep, ih h]
    | fault | refused =>
      rw [hstep] at h
      cases h

section
variable {alg : BitVec 2} {digits : BitVec 8} {period : Word32} {time : Word64} {text : List Byte}
  {rest : List Transaction}

/-- The text a load leaves in the secret buffer is the text that was loaded (R135). -/
theorem secretText_of_reads (hslen : s.slen.toNat = text.length)
    (hread : ∀ i, s.secret.read i = text.getD i 0) : s.secretText = text := by
  refine List.ext_getElem? fun i => ?_
  rw [State.secretText, Memory.getElem?_readBytes, hslen, Nat.zero_add, hread]
  split
  · rw [List.getD_eq_getElem?_getD, List.getElem?_eq_getElem ‹_›, Option.getD_some]
  · rw [List.getElem?_eq_none (Nat.not_lt.mp ‹_›)]

/-- A register's value fits the register, and comes back from the port's width. -/
theorem setWidth_fits {n : Nat} (x : BitVec n) : (x.setWidth 64).toNat < 2 ^ n := by
  rw [BitVec.toNat_setWidth]
  exact Nat.lt_of_le_of_lt (Nat.mod_le ..) x.isLt

theorem setWidth_back {n : Nat} (x : BitVec n) (hn : n ≤ 64) : (x.setWidth 64).setWidth n = x := by
  rw [BitVec.setWidth_setWidth_of_le x hn, BitVec.setWidth_eq]

/-- The four register writes leave the configuration they were given (R65). -/
theorem run_configure (hp : s.pending = .regWrite 1 (alg.setWidth 64) ::
    .regWrite 2 (digits.setWidth 64) :: .regWrite 3 (period.setWidth 64) :: .regWrite 4 time :: rest) :
    ∃ u, core.run 4 s = .next u ∧ u.alg = alg ∧ u.digits = digits ∧ u.period = period ∧
      u.time = time ∧ u.pending = rest := by
  refine ⟨_, (core_run_succ 3 (step_regWrite hp (r := .alg) rfl rfl (setWidth_fits alg))).trans <|
    (core_run_succ 2 (step_regWrite rfl (r := .digits) rfl rfl (setWidth_fits digits))).trans <|
    (core_run_succ 1 (step_regWrite rfl (r := .period) rfl rfl (setWidth_fits period))).trans <|
    core_run_succ 0 (step_regWrite rfl (r := .time) rfl rfl time.isLt), setWidth_back alg (by decide),
    setWidth_back digits (by decide), setWidth_back period (by decide), rfl, rfl⟩

end

/-- Settles O50: the configuration is written, the text loaded, and `GEN` computes `generate` of them. -/
theorem hostObtainsGeneratedCode : Obligations.HostObtainsGeneratedCode := by
  intro s text alg digits period time hlength hp
  obtain ⟨u, hconfigure, rfl, rfl, rfl, rfl, hu⟩ := run_configure hp
  obtain ⟨v, hload, hslen, hread, hovf, -, -, -, -, hconfig, -, hv⟩ :=
    loadFillsSecret u text [.cmd 0x9000] hlength hu
  obtain ⟨t, hexec, hpending, hresult⟩ := exec_gen_generate (s := { v with pending := [] }) hovf
  have hstep : step v = .next t := (step_command hv (decode_encode .gen)).trans hexec
  have hrun : core.run (4 + (text.length + 1 + 1)) s = .next t := by
    rw [run_add core hconfigure, run_add core hload, core_run_succ 0 hstep, core_run_zero]
  have htext : State.secretText { v with pending := [] } = text := secretText_of_reads hslen hread
  rw [htext, hconfig.alg, hconfig.digits, hconfig.period, hconfig.time] at hresult
  refine ⟨t, by rwa [show text.length + 6 = 4 + (text.length + 1 + 1) by omega], hpending, ?_⟩
  cases hgenerate : generate text u.alg u.digits u.period u.time with
  | ok str =>
    rw [hgenerate] at hresult
    exact ⟨hresult.1, hresult.2.2⟩
  | error e =>
    rw [hgenerate] at hresult
    exact hresult.1

end Sys2Proof.Machine
end

section
/-! SUPPORT. What every command and every transaction answers (60_exceptions.md R322, R324, R330): a next state, the
pending list as it was, and a completion code of the command's row. -/

namespace Sys2Proof.Machine

variable {s t u : State} {i : Instr} {c : BitVec 4} {e : ErrorKind}

/-! ### A next state, one transaction at a time (R70, R330) -/

theorem Computes.pending (h : Computes s i u c) : u.pending = s.pending := by cases h <;> simp

theorem exec_next_pending (i : Instr) (s : State) :
    ∃ t, exec i s = .next t ∧ t.pending = s.pending := by
  by_cases hi : i = .clrerr
  · subst hi
    exact ⟨_, rfl, rfl⟩
  · obtain ⟨u, c, hu, hexec⟩ := completes_of_ne_clrerr (s := s) hi
    exact ⟨_, hexec, hu.pending⟩

theorem command_next_pending (w : Word16) (s : State) :
    ∃ t, command w s = .next t ∧ t.pending = s.pending := by
  cases hd : decode w with
  | ok i => exact command_legal hd s ▸ exec_next_pending i s
  | error e => exact ⟨_, command_illegal hd s, rfl⟩

theorem regWrite_pending (idx : BitVec 8) (data : Word64) (s : State) :
    (regWrite idx data s).pending = s.pending := by
  obtain h | ⟨r, -, h⟩ := regWrite_cases idx data s
  · rw [h]
  · rw [h]
    exact s.setRegister_pending r data

theorem serve_next_pending (x : Transaction) (s : State) :
    ∃ t, serve x s = .next t ∧ t.pending = s.pending := by
  cases x with
  | cmd w => exact command_next_pending w s
  | reset => exact ⟨_, rfl, rfl⟩
  | regRead idx =>
    obtain ⟨ok, data, h⟩ := regRead_cases idx s
    exact ⟨_, rfl, by rw [h]⟩
  | regWrite idx data => exact ⟨_, rfl, regWrite_pending idx data s⟩
  | bufRead buf i =>
    obtain ⟨ok, byte, h⟩ := bufRead_cases buf i s
    exact ⟨_, rfl, by rw [h]⟩

theorem step_next_pending (s : State) : ∃ t, step s = .next t ∧ t.pending = s.pending.tail := by
  cases hp : s.pending with
  | nil => exact ⟨s, step_idle hp, hp⟩
  | cons x rest => exact step_serves hp ▸ serve_next_pending x { s with pending := rest }

/-- Settles O6: every command completes, so every transaction is served, and none touches what is still pending. -/
theorem everyStepAnswersNext : Obligations.EveryStepAnswersNext :=
  ⟨fun _ => step_idle, step_next_pending, exec_next_pending⟩

/-! ### The completion codes (R322, R324) -/

/-- The codes of the command's row in the table of R324. -/
def rowCodes (i : Instr) : List (BitVec 4) :=
  match i with
  | .nop | .clr | .clrerr => [0]
  | .push _ => [0, 10]
  | .dec | .decu => [0, 1, 10]
  | .ctr => [0, 4]
  | .mac => [0, 9]
  | .trunc => [0, 9, 11]
  | .mod => [0, 3, 9]
  | .gen => [0, 1, 2, 3, 4, 10, 11]

/-- Every command can complete without an error. -/
theorem zero_mem_rowCodes (i : Instr) : 0 ∈ rowCodes i := by cases i <;> simp [rowCodes]

/-- `DEC` and `DECU` have the same row. -/
theorem rowCodes_decodeCommand (fold : Bool) : rowCodes (decodeCommand fold) = [0, 1, 10] := by
  cases fold <;> rfl

/-- Each of the six tests of `GEN` raises an error of its row (R305). -/
theorem genError_code_mem {text : List Byte} {ovf : Bool} {alg : BitVec 2} {digits : BitVec 8}
    {period : Word32} {time : Word64} (h : genError text ovf alg digits period time = some e) :
    e.code ∈ rowCodes .gen := by
  simp only [genError] at h
  split at h
  · cases h; decide
  split at h
  · cases h; decide
  split at h
  · cases h; decide
  split at h
  · cases h; decide
  split at h
  · cases h; decide
  split at h
  · cases h; decide
  · cases h

/-- A command that works out its result completes with 0; each error it raises is one of its row. -/
theorem Computes.code_mem (h : Computes s i u c) : c ∈ rowCodes i := by
  cases h with
  | pushFull | ctrPeriod | macSequence | truncSequence | truncRange | modSequence | modDigits =>
    simp [rowCodes, ErrorKind.code]
  | decodeOverflow fold | decodeFail fold => rw [rowCodes_decodeCommand]; decide
  | genFail e herror => exact genError_code_mem herror
  | _ => exact zero_mem_rowCodes _

theorem exec_lasterr_mem (h : exec i s = .next t) : t.lasterr ∈ rowCodes i := by
  obtain ⟨rfl, rfl⟩ | ⟨-, u, c, hu, rfl⟩ := exec_cases h
  · exact zero_mem_rowCodes .clrerr
  · exact hu.code_mem

/-- Settles O54: the code a command records is one of its row, written out row by row. -/
theorem completionCodes : Obligations.CompletionCodes := by
  intro i s t h
  have hcode := exec_lasterr_mem h
  cases i <;> simpa [rowCodes] using hcode

end Sys2Proof.Machine
end
